-- ==== Sys2Proof/Word.lean ====
section
/-! DEFINITION. The word type: FPSID, the general registers and the assembled instruction words are 32 bits
(10_state.md R20, R34; 30_encoding.md R70). -/

namespace Sys2Proof

/-- A 32-bit value (10_state.md R20). The width of a general register is 32 by 92_eei_decisions.md D27. -/
abbrev Word := BitVec 32

end Sys2Proof
end

