-- ==== Sys2Proof/Config.lean ====
section
/-! DEFINITION. The implementation parameters (00_scope.md R3), the replaceable encoding table among them, the labels of
two FPSID fields, and the free values. The parameters are a record that State holds, so that a statement about every state
is a statement about every configuration; the free values are constants without a body. -/

namespace Sys2Proof

/-- One row of spec/opcode_table.json: a word fits it when the word under `mask` is `pattern`. -/
structure EncodingRow where
  mask : Word
  pattern : Word
  deriving DecidableEq, Repr

/-- The four rows of spec/opcode_table.json. The match and mask words are replaceable configuration (00_scope.md R3,
R11; 92_eei_decisions.md D1): a machine's table is a parameter of it, and the decoder and the encoder take the table as an
argument. -/
structure EncodingTable where
  vmrsA32 : EncodingRow
  vmrsT32 : EncodingRow
  vmsrA32 : EncodingRow
  vmsrT32 : EncodingRow
  deriving DecidableEq, Repr

/-- The parameters of 00_scope.md R3: fixed while the machine runs, open in the spec. -/
structure Config where
  /-- FPSID_IMPLEMENTER, FPSID[31:24] (10_state.md R23) -/
  implementer : BitVec 8
  /-- FPSID_SW, FPSID[23] (R24) -/
  sw : BitVec 1
  /-- FPSID_SUBARCH, FPSID[22:16] (R25 to R27) -/
  subarch : BitVec 7
  /-- FPSID_PARTNUM, FPSID[15:8] (R28) -/
  partNum : BitVec 8
  /-- FPSID_VARIANT, FPSID[7:4] (R29) -/
  variant : BitVec 4
  /-- FPSID_REVISION, FPSID[3:0] (R30) -/
  revision : BitVec 4
  /-- HAS_ADVSIMD_FP (R32) -/
  hasAdvSimdFp : Bool
  /-- FEAT_AA32EL1 (R32, R37) -/
  featAA32EL1 : Bool
  /-- FEAT_AA32EL2 (R37) -/
  featAA32EL2 : Bool
  /-- FEAT_AA32EL3 (R37) -/
  featAA32EL3 : Bool
  /-- FEAT_AA64EL2 (R37) -/
  featAA64EL2 : Bool
  /-- FEAT_AA64EL3 (R37) -/
  featAA64EL3 : Bool
  /-- HAVE_EL3 (R37) -/
  haveEL3 : Bool
  /-- ARMV8A (R33; 92_eei_decisions.md D3) -/
  armv8a : Bool
  /-- FPSCR_TRAP_ENABLES (R33; D25) -/
  fpscrTrapEnables : Bool
  /-- SUBARCH_DESIGNER_IS_ARM (R26, R33; D21) -/
  subarchDesignerIsArm : Bool
  /-- the match and mask words of the instruction encodings (last row of R3; D1, D23): replaceable, `opcodeTable` for the
  spec's own -/
  encodings : EncodingTable
  deriving DecidableEq, Repr

/-- The meaning of FPSID.SW (10_state.md R24). -/
inductive SwMeaning where
  /-- 0b0: the floating-point instructions are implemented in hardware -/
  | hardware
  /-- 0b1: only software emulation of them is supported -/
  | softwareEmulationOnly
  deriving DecidableEq, Repr

/-- The meaning of FPSID.Subarchitecture (10_state.md R25, R26). Labels only. -/
inductive SubarchMeaning where
  /-- 0x00: VFPv1, IMPLEMENTATION DEFINED subarchitecture -/
  | vfpv1
  /-- 0x01: VFPv2, Common VFP subarchitecture v1 -/
  | vfpv2CommonV1
  /-- 0x02: VFPv3 or later, Common VFP subarchitecture v2 -/
  | vfpv3CommonV2
  /-- 0x03: VFPv3 or later, Null subarchitecture, no trap enable bits in FPSCR -/
  | vfpv3Null
  /-- 0x04: VFPv3 or later, Common VFP subarchitecture v3, with trap enable bits in FPSCR -/
  | vfpv3CommonV3
  /-- 0x05 to 0x3F: reserved -/
  | reserved
  /-- 0x40 to 0x7F: not designed by Arm, from the implementer's own list -/
  | implementersOwn
  deriving DecidableEq, Repr

/-- FREE VALUE: FPSID.Implementer of the machine that State.reset describes (10_state.md R23, IMPLEMENTATION DEFINED;
notes/assumptions/1.md). -/
opaque Config.freeImplementer : BitVec 8

/-- FREE VALUE: FPSID.PartNum at State.reset (10_state.md R28; notes/assumptions/1.md). -/
opaque Config.freePartNum : BitVec 8

/-- FREE VALUE: FPSID.Variant at State.reset (10_state.md R29; notes/assumptions/1.md). -/
opaque Config.freeVariant : BitVec 4

/-- FREE VALUE: FPSID.Revision at State.reset (10_state.md R30; notes/assumptions/1.md). -/
opaque Config.freeRevision : BitVec 4

/-- FREE VALUE: what general register `i` holds at State.reset. 10_state.md R43: "The model must not assume zero, or any
other value" (notes/assumptions/3.md). -/
opaque Config.resetRegister : Nat → Word

/-- FREE VALUE: the choice of 40_fpsid_access.md R87. When a condition has failed and the check would fault, the k-th
such access takes the fault (true) or is a no-op (false); both are members of the step relation (notes/assumptions/9.md). -/
opaque Config.failedConditionFaults : Nat → Bool

end Sys2Proof
end

