-- ==== Sys2Proof/Syntax.lean ====
section
/-! DEFINITION. The instructions: one constructor per row of spec/opcode_table.json (30_encoding.md R62 to R65), the
two instruction sets, the one special register, and the verdicts by which the decoder refuses a word. -/

namespace Sys2Proof

/-- The instruction set being decoded, an input of the decoder (30_encoding.md R70; 92_eei_decisions.md D23). -/
inductive ISet where
  | a32
  | t32
  deriving DecidableEq, Repr

/-- The special registers that `<spec_reg>` can name in this spec (30_encoding.md R61, R71): FPSID alone. -/
inductive SpecialRegister where
  | fpsid
  deriving DecidableEq, Repr

/-- The four rows of spec/opcode_table.json. `rt` is the number t of `<Rt>` (30_encoding.md R66), `cond` the condition
field of the A32 forms (R68). The special register is FPSID in all four (R61). -/
inductive Instr where
  /-- `VMRS <Rt>, FPSID`, A32 form: read FPSID (R62, R85) -/
  | vmrsA32 (cond : BitVec 4) (rt : Fin 16)
  /-- `VMRS <Rt>, FPSID`, T32 form (R63, R85) -/
  | vmrsT32 (rt : Fin 16)
  /-- `VMSR FPSID, <Rt>`, A32 form: write FPSID, ignored (R64, R86) -/
  | vmsrA32 (cond : BitVec 4) (rt : Fin 16)
  /-- `VMSR FPSID, <Rt>`, T32 form (R65, R86) -/
  | vmsrT32 (rt : Fin 16)
  deriving DecidableEq, Repr

/-- The instruction set a row belongs to. -/
def Instr.iset : Instr → ISet
  | .vmrsA32 _ _ => .a32
  | .vmrsT32 _ => .t32
  | .vmsrA32 _ _ => .a32
  | .vmsrT32 _ => .t32

/-- The register number t of `<Rt>`. -/
def Instr.rt : Instr → Fin 16
  | .vmrsA32 _ rt => rt
  | .vmrsT32 rt => rt
  | .vmsrA32 _ rt => rt
  | .vmsrT32 rt => rt

/-- Why the decoder gives a word no meaning (30_encoding.md R72, whose kinds the model reports apart). -/
inductive Rejection where
  /-- an A32 row's word with cond = 0b1111, a different part of the encoding space (R68) -/
  | condition1111
  /-- a row's word with Rt = 0b1111 (R66; 92_eei_decisions.md D6) -/
  | register15
  /-- a word that differs from a row only in should-be-zero bits (R67; D13) -/
  | shouldBeZero
  /-- every other word, VMRS and VMSR with another `reg` among them (R61, R72; D14) -/
  | outOfScope
  deriving DecidableEq, Repr

end Sys2Proof
end

