-- ==== Sys2Proof/WellFormed.lean ====
section
/-! DEFINITION. The admitted instructions: t is 0 to 14 (30_encoding.md R66; 92_eei_decisions.md D6), and the condition
of an A32 form is not 0b1111 (30_encoding.md R68). -/

namespace Sys2Proof

/-- t = 15 is refused, every other t including 13 and 14 is admitted (10_state.md R34). -/
def admittedRegister (rt : Fin 16) : Bool := rt != 15

/-- 0b1111 is no condition of these instructions (30_encoding.md R68). -/
def admittedCondition (cond : BitVec 4) : Bool := cond != 0b1111#4

/-- The admitted subset (92_eei_decisions.md D1). -/
def Instr.wellFormed : Instr → Bool
  | .vmrsA32 cond rt => admittedCondition cond && admittedRegister rt
  | .vmrsT32 rt => admittedRegister rt
  | .vmsrA32 cond rt => admittedCondition cond && admittedRegister rt
  | .vmsrT32 rt => admittedRegister rt

end Sys2Proof
end

