-- ==== Sys2Proof/Decode.lean ====
section
/-! DEFINITION. The decoder, total on pairs (instruction set, 32-bit value) and refusing by name (30_encoding.md R72),
and after it the encoder, both over the rows of spec/opcode_table.json (R62 to R65). For a T32 word the first halfword
is bits [31:16] (R63, R70). -/

namespace Sys2Proof

/-- spec/opcode_table.json, as 30_encoding.md R62 to R65 give it. Only `reg` = 0b0000 (bits [19:16]) is the source's;
every other bit is the spec's general knowledge (93_implementation_defined.md GK5 to GK8). -/
def opcodeTable : EncodingTable where
  vmrsA32 := { mask := 0x0FFF0FFF#32, pattern := 0x0EF00A10#32 }
  vmrsT32 := { mask := 0xFFFF0FFF#32, pattern := 0xEEF00A10#32 }
  vmsrA32 := { mask := 0x0FFF0FFF#32, pattern := 0x0EE00A10#32 }
  vmsrT32 := { mask := 0xFFFF0FFF#32, pattern := 0xEEE00A10#32 }

/-- Bits 7, 6, 5, 3, 2, 1, 0, should-be-zero in all four rows (30_encoding.md R67). -/
def shouldBeZeroBits : Word := 0x000000EF#32

/-- cond = word[31:28] of an A32 form (30_encoding.md R62, R66). -/
def condField (w : Word) : BitVec 4 := w.extractLsb' 28 4

/-- reg = word[19:16] (30_encoding.md R61, R62). -/
def regField (w : Word) : BitVec 4 := w.extractLsb' 16 4

/-- t = UInt(word[15:12]) (30_encoding.md R66). -/
def rtField (w : Word) : Fin 16 := (w.extractLsb' 12 4).toFin

/-- The word fits the row: it is the row's pattern under the row's mask. -/
def EncodingRow.hits (r : EncodingRow) (w : Word) : Bool := (w &&& r.mask) == r.pattern

/-- The word fits the row in every bit the row fixes but the should-be-zero bits (30_encoding.md R67, R72). -/
def EncodingRow.nearMiss (r : EncodingRow) (w : Word) : Bool :=
  (w &&& (r.mask &&& ~~~shouldBeZeroBits)) == (r.pattern &&& ~~~shouldBeZeroBits)

/-- The constraints of an A32 row on a word that fits it (30_encoding.md R66, R68). -/
def decodeA32Operands (form : BitVec 4 → Fin 16 → Instr) (w : Word) : Except Rejection Instr :=
  if admittedCondition (condField w) then
    if admittedRegister (rtField w) then .ok (form (condField w) (rtField w)) else .error .register15
  else .error .condition1111

/-- The constraint of a T32 row on a word that fits it (30_encoding.md R66). -/
def decodeT32Operands (form : Fin 16 → Instr) (w : Word) : Except Rejection Instr :=
  if admittedRegister (rtField w) then .ok (form (rtField w)) else .error .register15

/-- The verdict on a word that fits no row: refused, and why (30_encoding.md R67, R72). -/
def decodeMiss (read write : EncodingRow) (w : Word) : Except Rejection Instr :=
  if read.nearMiss w || write.nearMiss w then .error .shouldBeZero else .error .outOfScope

/-- The decoder of 30_encoding.md R72 over a replaceable table (00_scope.md R3). Where a replaced table has a word fit both
rows of an instruction set, the spec does not say what it is, and the read's row is taken first (DESIGN CHOICE,
notes/assumptions/21.md); the spec's own rows do not overlap. -/
def decodeWith (table : EncodingTable) (iset : ISet) (w : Word) : Except Rejection Instr :=
  match iset with
  | .a32 =>
    if table.vmrsA32.hits w then decodeA32Operands .vmrsA32 w
    else if table.vmsrA32.hits w then decodeA32Operands .vmsrA32 w
    else decodeMiss table.vmrsA32 table.vmsrA32 w
  | .t32 =>
    if table.vmrsT32.hits w then decodeT32Operands .vmrsT32 w
    else if table.vmsrT32.hits w then decodeT32Operands .vmsrT32 w
    else decodeMiss table.vmrsT32 table.vmsrT32 w

/-- The decoder of 30_encoding.md R72 over spec/opcode_table.json. -/
def decode (iset : ISet) (w : Word) : Except Rejection Instr := decodeWith opcodeTable iset w

/-- The Rt field in place: bits [15:12]. -/
def rtBits (rt : Fin 16) : Word := BitVec.ofNat 32 rt.val <<< 12

/-- The cond field in place: bits [31:28]. -/
def condBits (cond : BitVec 4) : Word := cond.setWidth 32 <<< 28

/-- The row of an instruction. -/
def EncodingTable.row (table : EncodingTable) : Instr → EncodingRow
  | .vmrsA32 _ _ => table.vmrsA32
  | .vmrsT32 _ => table.vmrsT32
  | .vmsrA32 _ _ => table.vmsrA32
  | .vmsrT32 _ => table.vmsrT32

/-- The encoder over a replaceable table: the row's pattern with the operand fields filled in. -/
def encodeWith (table : EncodingTable) (i : Instr) : Word :=
  match i with
  | .vmrsA32 cond rt => table.vmrsA32.pattern ||| condBits cond ||| rtBits rt
  | .vmrsT32 rt => table.vmrsT32.pattern ||| rtBits rt
  | .vmsrA32 cond rt => table.vmsrA32.pattern ||| condBits cond ||| rtBits rt
  | .vmsrT32 rt => table.vmsrT32.pattern ||| rtBits rt

/-- The word of an instruction (30_encoding.md R62 to R65). -/
def encode (i : Instr) : Word := encodeWith opcodeTable i

/-- Which instruction set a bare table word is read in, where none is given beside it. A word with 0b1110 at [31:28] fits
a T32 row and an A32 row at once; the T32 row fixes more bits and is taken (DESIGN CHOICE, notes/assumptions/10.md). -/
def tableWordISet (w : Word) : ISet :=
  if opcodeTable.vmrsT32.hits w || opcodeTable.vmsrT32.hits w then .t32 else .a32

/-- An opcode-table word's low `nbits` bits as the 32-bit value the decoder takes (30_encoding.md R70: 32 bits). -/
def tableWord (nbits w : Nat) : Word := BitVec.ofNat 32 (w % 2 ^ nbits)

/-- The instruction the decoder reads from an opcode-table word. Every instruction is 32 bits (30_encoding.md R70), so a
number that needs more bits is no instruction. -/
def decodeTableWord (nbits w : Nat) : Option Instr :=
  if w % 2 ^ nbits < 2 ^ 32 then
    match decode (tableWordISet (tableWord nbits w)) (tableWord nbits w) with
    | .ok i => some i
    | .error _ => none
  else none

/-- The condition suffix `<c>` as far as the spec spells it: absent means always (30_encoding.md R69), and
95_test_vectors.md E3 and E4 name NE and EQ. -/
def conditionSuffix (cond : BitVec 4) : Option String :=
  if cond = 0b1110#4 then some ""
  else if cond = 0b0000#4 then some "EQ"
  else if cond = 0b0001#4 then some "NE"
  else none

/-- The assembler spelling (30_encoding.md R69): `VMRS R<t>, FPSID` and `VMSR FPSID, R<t>`, where the spec spells the
suffix. A T32 form carries no suffix of its own (R68). -/
def assembly : Instr → Option String
  | .vmrsA32 cond rt => (conditionSuffix cond).map fun c => "VMRS" ++ c ++ " R" ++ toString rt.val ++ ", FPSID"
  | .vmrsT32 rt => some ("VMRS R" ++ toString rt.val ++ ", FPSID")
  | .vmsrA32 cond rt => (conditionSuffix cond).map fun c => "VMSR" ++ c ++ " FPSID, R" ++ toString rt.val
  | .vmsrT32 rt => some ("VMSR FPSID, R" ++ toString rt.val)

end Sys2Proof
end

