-- ==== Sys2Proof/Machine/State.lean ====
section
/-! DEFINITION. The state as plain data (10_state.md): the parameters, the general registers, the access context and
what the enclosing model presents; the faults and refusals a step can end in; the state a run starts from. -/

namespace Sys2Proof.Machine

/-- The four values of PSTATE.EL (10_state.md R35; 60_exceptions.md R118). -/
inductive ExceptionLevel where
  | el0
  | el1
  | el2
  | el3
  deriving DecidableEq, Repr

/-- The access context `ctx`: every input of one access step (10_state.md R35 to R37, R41). Any combination of values is
admissible; no relation among them is assumed (92_eei_decisions.md D5). -/
structure AccessContext where
  /-- PSTATE.EL (R35) -/
  el : ExceptionLevel
  /-- CPACR.cp10 (R36) -/
  cpacrCp10 : BitVec 2
  /-- NSACR.cp10 (R36) -/
  nsacrCp10 : BitVec 1
  /-- SCR.NS (R36) -/
  scrNs : BitVec 1
  /-- HCPTR.TCP10 (R36) -/
  hcptrTcp10 : BitVec 1
  /-- HCR.TID0 (R36) -/
  hcrTid0 : BitVec 1
  /-- HCR_EL2.TID0 (R36) -/
  hcrEl2Tid0 : BitVec 1
  /-- CPTR_EL2.TFP (R36) -/
  cptrEl2Tfp : BitVec 1
  /-- CPTR_EL2.FPEN (R36) -/
  cptrEl2Fpen : BitVec 2
  /-- CPTR_EL3.TFP (R36) -/
  cptrEl3Tfp : BitVec 1
  /-- ELUsingAArch32(EL2) (R37) -/
  el2Aarch32 : Bool
  /-- ELUsingAArch32(EL3) (R37) -/
  el3Aarch32 : Bool
  /-- EL2Enabled() (R37) -/
  el2Enabled : Bool
  /-- ELIsInHost(EL2) (R37) -/
  el2InHost : Bool
  /-- EL3SDDUndefPriority() (R37) -/
  el3SddUndefPriority : Bool
  /-- EL3SDDUndef() (R37) -/
  el3SddUndef : Bool
  /-- ctx.cond_passed (R41; 40_fpsid_access.md R87): the result of the condition as the enclosing model evaluates it -/
  condPassed : Bool
  deriving DecidableEq, Repr

/-- What the enclosing model presents to one step beside the instruction word: the instruction set (30_encoding.md R70)
and the access context (00_scope.md R3: inputs can differ from one access to the next). -/
structure Presented where
  iset : ISet
  ctx : AccessContext
  deriving DecidableEq, Repr

/-- The instruction words the enclosing model presents, by address: each entry an already assembled 32-bit value
(20_memory.md R53), so that no byte order is chosen (notes/assumptions/7.md). It is no data memory: neither access form
reads or writes memory (R50). -/
abbrev Memory := List (Nat × Word)

/-- The machine. -/
structure State where
  /-- the parameters (00_scope.md R3); FPSID is their concatenation (10_state.md R21) -/
  cfg : Config
  /-- x[0] to x[15], the source's R[t] (10_state.md R34) -/
  x : Vector Word 16
  /-- the program counter, which the enclosing model owns (10_state.md R39; notes/assumptions/6.md) -/
  pc : BitVec 32
  /-- the presented instruction words (20_memory.md R53; notes/assumptions/7.md) -/
  mem : Memory
  /-- the instruction set of this step (30_encoding.md R70) -/
  iset : ISet
  /-- the access context of this step (10_state.md R35 to R37, R41) -/
  ctx : AccessContext
  /-- what the enclosing model will present to the steps after this one, the next first (notes/assumptions/8.md) -/
  pending : List Presented
  /-- the model's own counter of the free choices of 40_fpsid_access.md R87 taken so far (notes/assumptions/9.md) -/
  draws : Nat
  deriving DecidableEq, Repr

/-- The faults of an access (40_fpsid_access.md R80; 60_exceptions.md R110 to R113). Each is raised by the access check
alone, through `raise`, writes no register, and is terminal: the source describes no trap entry (R116). Safe: the
hardware goes on in a handler, the model proves nothing about such runs (notes/assumptions/11.md). -/
inductive Fault where
  /-- `UNDEFINED;`, no argument (R110). Raised by R81 steps 1 and 2, R82 steps 1.1, 1.2, 1.8, R83 steps 2.1, 2.3, R84
  step 3.1. Safe. -/
  | undefined
  /-- `AArch64.AArch32SystemAccessTrap(target, code)` (R111): (EL2, 0x07), (EL2, 0x08) or (EL3, 0x07). Raised by R82
  steps 1.3, 1.4, 1.6, 1.8 and R83 step 2.3. Safe. -/
  | systemAccessTrap (target : ExceptionLevel) (code : Nat)
  /-- `AArch32.TakeHypTrapException(code)` (R112): 0x08 from EL1, 0x00 from EL2. Raised by R82 steps 1.5, 1.7 and R83
  step 2.2. Safe. -/
  | hypTrap (code : Nat)
  deriving DecidableEq, Repr

/-- Where the model gives no meaning. All safe: the run stops. -/
inductive Refusal where
  /-- an instruction with no meaning yet, raised by a refused arm of `exec`; there is none. Safe. -/
  | notModelled (mnemonic : String)
  /-- HAS_ADVSIMD_FP is false, raised by every access (10_state.md R32; 92_eei_decisions.md D4). Safe. -/
  | advSimdFpAbsent
  /-- FPSID_WF fails, raised by every access (10_state.md R33; D20). Safe. -/
  | illFormedConfiguration
  /-- a term outside the admitted subset, t = 15 or cond = 0b1111, raised by every access; the decoder produces none
  (30_encoding.md R66, R68; D6). Safe. -/
  | illFormedInstruction
  /-- the enclosing model presents no instruction at the program counter, raised by `step` (20_memory.md R53). Safe. -/
  | noInstruction
  /-- the decoder refuses the word, raised by `step` (30_encoding.md R72). Safe. -/
  | undecodable (why : Rejection)
  deriving DecidableEq, Repr

/-- The configuration of State.reset: the FPSID numbers free (notes/assumptions/1.md), the encodings those of
spec/opcode_table.json (notes/assumptions/14.md), the rest named (notes/assumptions/2.md). -/
def resetConfig : Config where
  implementer := Config.freeImplementer
  sw := 0
  subarch := 0x03
  partNum := Config.freePartNum
  variant := Config.freeVariant
  revision := Config.freeRevision
  hasAdvSimdFp := true
  featAA32EL1 := true
  featAA32EL2 := false
  featAA32EL3 := false
  featAA64EL2 := false
  featAA64EL3 := false
  haveEL3 := false
  armv8a := true
  fpscrTrapEnables := false
  subarchDesignerIsArm := true
  encodings := opcodeTable

/-- The access context of State.reset: 95_test_vectors.md V3, "the minimal permitting EL1 context", with the condition
passed (DESIGN CHOICE, notes/assumptions/4.md). -/
def resetContext : AccessContext where
  el := .el1
  cpacrCp10 := 0b11
  nsacrCp10 := 0
  scrNs := 0
  hcptrTcp10 := 0
  hcrTid0 := 0
  hcrEl2Tid0 := 0
  cptrEl2Tfp := 0
  cptrEl2Fpen := 0
  cptrEl3Tfp := 0
  el2Aarch32 := false
  el3Aarch32 := false
  el2Enabled := false
  el2InHost := false
  el3SddUndefPriority := false
  el3SddUndef := false
  condPassed := true

/-- The launch state. The spec has no reset (70_reset_and_hazards.md R130) and gives one value, FPSID's constant
(10_state.md R43); notes/assumptions/1.md to 9.md name the others. -/
def State.reset : State where
  cfg := resetConfig
  x := Vector.ofFn fun i => Config.resetRegister i.val
  pc := 0
  mem := []
  iset := .a32
  ctx := resetContext
  pending := []
  draws := 0

end Sys2Proof.Machine
end

