-- ==== Sys2Proof/Machine/Fpsid.lean ====
section
/-! DEFINITION. The register FPSID (10_state.md R20 to R33): its value from the six fields, its fields from a value, what
the fields mean, and which configurations are well-formed. -/

namespace Sys2Proof.Machine

/-- FPSID_VALUE (10_state.md R21): Implementer : SW : Subarchitecture : PartNum : Variant : Revision. -/
def fpsidValue (c : Config) : Word :=
  c.implementer ++ c.sw ++ c.subarch ++ c.partNum ++ c.variant ++ c.revision

/-- FPSID[31:24] (10_state.md R21, R23) -/
def fpsidImplementer (v : Word) : BitVec 8 := v.extractLsb' 24 8

/-- FPSID[23] (10_state.md R21, R24) -/
def fpsidSw (v : Word) : BitVec 1 := v.extractLsb' 23 1

/-- FPSID[22:16] (10_state.md R21, R25) -/
def fpsidSubarch (v : Word) : BitVec 7 := v.extractLsb' 16 7

/-- FPSID[15:8] (10_state.md R21, R28) -/
def fpsidPartNum (v : Word) : BitVec 8 := v.extractLsb' 8 8

/-- FPSID[7:4] (10_state.md R21, R29) -/
def fpsidVariant (v : Word) : BitVec 4 := v.extractLsb' 4 4

/-- FPSID[3:0] (10_state.md R21, R30) -/
def fpsidRevision (v : Word) : BitVec 4 := v.extractLsb' 0 4

/-- An FPSID value of an implementation by Arm, whose implementer code is 0x41, the one code the source gives
(10_state.md R23). -/
def isArmImplementation (v : Word) : Bool := fpsidImplementer v == 0x41

/-- The table of 10_state.md R24. -/
def swMeaning (sw : BitVec 1) : SwMeaning :=
  if sw = 0 then .hardware else .softwareEmulationOnly

/-- The table of 10_state.md R25 with the ranges of R26. -/
def subarchMeaning (sub : BitVec 7) : SubarchMeaning :=
  if sub = 0x00 then .vfpv1
  else if sub = 0x01 then .vfpv2CommonV1
  else if sub = 0x02 then .vfpv3CommonV2
  else if sub = 0x03 then .vfpv3Null
  else if sub = 0x04 then .vfpv3CommonV3
  else if sub.toNat < 0x40 then .reserved
  else .implementersOwn

/-- Where "The VFP architecture version is indicated by the MVFR0 and MVFR1 registers": Subarchitecture 0x02, 0x03, 0x04
(10_state.md R25, R38). -/
def versionIsInMvfr (sub : BitVec 7) : Bool := sub == 0x02 || sub == 0x03 || sub == 0x04

/-- Bit 6 of the field, register bit 22: 0 for a subarchitecture designed by Arm (10_state.md R26). -/
def designerBit (sub : BitVec 7) : Bool := sub.getLsbD 6

/-- FPSID_WF (10_state.md R33), its clauses (a) to (f) in order. -/
def fpsidWf (c : Config) : Bool :=
  (designerBit c.subarch || (subarchMeaning c.subarch != .reserved))
    && (c.subarchDesignerIsArm == !designerBit c.subarch)
    && (!c.armv8a || c.sw == 0)
    && (!c.armv8a || (c.subarch == 0x03 || c.subarch == 0x04))
    && (!(c.subarch == 0x03) || !c.fpscrTrapEnables)
    && (!(c.subarch == 0x04) || c.fpscrTrapEnables)

/-- The value a read of FPSID gives in this state: the constant of the configuration (10_state.md R22). -/
def State.fpsid (s : State) : Word := fpsidValue s.cfg

end Sys2Proof.Machine
end

