-- ==== Sys2Proof/Machine/Ops.lean ====
section
/-! DEFINITION. The shared operations: the general registers (00_scope.md R6), the store of presented instruction words,
raising a fault, drawing the free choice of a failed condition, and moving on to the next instruction. -/

namespace Sys2Proof.Machine

/-- `x[i]` (00_scope.md R6; 10_state.md R34). -/
def State.readX (s : State) (i : Fin 16) : Word := s.x[i.val]

/-- `x[i] <- v` (00_scope.md R6). -/
def State.writeX (s : State) (i : Fin 16) (v : Word) : State := { s with x := s.x.set i.val v }

/-- The assembled word presented at address `a`, if there is one (20_memory.md R53). -/
def Memory.lookup : Memory → Nat → Option Word
  | [], _ => none
  | (b, w) :: rest, a => if a = b then some w else Memory.lookup rest a

/-- Present the word `w` at address `a`, keeping the addresses strictly rising. -/
def Memory.store : Memory → Nat → Word → Memory
  | [], a, w => [(a, w)]
  | (b, v) :: rest, a, w =>
    if a < b then (a, w) :: (b, v) :: rest
    else if a = b then (a, w) :: rest
    else (b, v) :: Memory.store rest a w

/-- The canonical form of the store: addresses strictly rising. An unlisted address presents no word, so no entry can
equal what an unlisted address reads as. -/
def Memory.wf : Memory → Bool
  | [] => true
  | (a, _) :: rest => rest.all (fun cell => a < cell.1) && Memory.wf rest

/-- `raise <Exception>(info)` (00_scope.md R6; 60_exceptions.md R116): the step ends with the fault and writes nothing.
The source describes no trap entry, so there is no next state. -/
def raise (f : Fault) : Host.Outcome State Fault Refusal := .fault f

/-- The free choice of 40_fpsid_access.md R87 at this access: true takes the fault, false is the no-op. -/
def State.failedConditionFaults (s : State) : Bool := Config.failedConditionFaults s.draws

/-- The choice has been taken: the next one is a fresh one. -/
def State.draw (s : State) : State := { s with draws := s.draws + 1 }

/-- What the enclosing model presents to the next step takes the place of what it presented to this one; where nothing
more is pending it presents the same again (notes/assumptions/8.md). -/
def State.presentNext (s : State) : State :=
  match s.pending with
  | [] => s
  | p :: rest => { s with iset := p.iset, ctx := p.ctx, pending := rest }

/-- Moving on after an access that completes: the next instruction is 4 bytes on (10_state.md R39; 40_fpsid_access.md
R91). -/
def State.advance (s : State) : State := { s.presentNext with pc := s.pc + 4 }

end Sys2Proof.Machine
end

