-- ==== Sys2Proof/Machine/AccessCheck.lean ====
section
/-! DEFINITION. The access check FPSIDAccessCheck (40_fpsid_access.md R81 to R84), in the source's order, which is the
priority order (60_exceptions.md R115). The numbers 1.1 to 3.2 below are the steps of those rules. -/

namespace Sys2Proof.Machine

/-- `HaveEL(EL3) && IsFeatureImplemented(FEAT_AA64EL3) && !ELUsingAArch32(EL3) && CPTR_EL3.TFP == '1'`: the EL3
floating-point trap, steps 1.8 and 2.3, and without its priority conjunct steps 1.1 and 2.1. -/
def el3Traps (c : Config) (x : AccessContext) : Bool :=
  c.haveEL3 && c.featAA64EL3 && !x.el3Aarch32 && x.cptrEl3Tfp == 1

/-- `IsFeatureImplemented(FEAT_AA32EL3) && ELUsingAArch32(EL3) && SCR.NS == '1' && NSACR.cp10 == '0'`: steps 1.2, 1.5,
2.2. -/
def nsacrDisables (c : Config) (x : AccessContext) : Bool :=
  c.featAA32EL3 && x.el3Aarch32 && x.scrNs == 1 && x.nsacrCp10 == 0

/-- `EL2Enabled() && IsFeatureImplemented(FEAT_AA64EL2) && !ELUsingAArch32(EL2)`: steps 1.3 and 1.6. -/
def el2EnabledAArch64 (c : Config) (x : AccessContext) : Bool :=
  x.el2Enabled && c.featAA64EL2 && !x.el2Aarch32

/-- `EL2Enabled() && IsFeatureImplemented(FEAT_AA32EL2) && ELUsingAArch32(EL2)`: steps 1.5 and 1.7. -/
def el2EnabledAArch32 (c : Config) (x : AccessContext) : Bool :=
  x.el2Enabled && c.featAA32EL2 && x.el2Aarch32

/-- `CPTR_EL2.FPEN IN {'x0'}`: bit 0 of the two-bit field is 0 (00_scope.md R7; 92_eei_decisions.md D22). -/
def fpenTraps (x : AccessContext) : Bool := !x.cptrEl2Fpen.getLsbD 0

/-- The EL3 floating-point trap as taken: UNDEFINED where EL3SDDUndef(), else the trap (steps 1.8, 2.3). -/
def el3TrapFault (x : AccessContext) : Fault :=
  if x.el3SddUndef then .undefined else .systemAccessTrap .el3 0x07

/-- CheckEL1 (40_fpsid_access.md R82), steps 1.1 to 1.9; `none` is Permit. Step 1.4 has no EL2Enabled() conjunct (note
a); step 1.5 carries the code 0x08 (note b; 90_conflicts.md C4). -/
def checkEL1 (c : Config) (x : AccessContext) : Option Fault :=
  if x.el3SddUndefPriority && el3Traps c x then some .undefined
  else if nsacrDisables c x || x.cpacrCp10 == 0 then some .undefined
  else if el2EnabledAArch64 c x && !x.el2InHost && x.cptrEl2Tfp == 1 then some (.systemAccessTrap .el2 0x07)
  else if x.el2InHost && c.featAA64EL2 && !x.el2Aarch32 && fpenTraps x then some (.systemAccessTrap .el2 0x07)
  else if el2EnabledAArch32 c x && (nsacrDisables c x || x.hcptrTcp10 == 1) then some (.hypTrap 0x08)
  else if el2EnabledAArch64 c x && x.hcrEl2Tid0 == 1 then some (.systemAccessTrap .el2 0x08)
  else if el2EnabledAArch32 c x && x.hcrTid0 == 1 then some (.hypTrap 0x08)
  else if el3Traps c x then some (el3TrapFault x)
  else none

/-- CheckEL2 (40_fpsid_access.md R83), steps 2.1 to 2.4. Step 2.2 tests EL2Enabled() only (note a), with the code 0x00
(note c). -/
def checkEL2 (c : Config) (x : AccessContext) : Option Fault :=
  if x.el3SddUndefPriority && el3Traps c x then some .undefined
  else if x.el2Enabled && (nsacrDisables c x || x.hcptrTcp10 == 1) then some (.hypTrap 0x00)
  else if el3Traps c x then some (el3TrapFault x)
  else none

/-- CheckEL3 (40_fpsid_access.md R84), steps 3.1 and 3.2: CPACR.cp10 and nothing else. -/
def checkEL3 (x : AccessContext) : Option Fault :=
  if x.cpacrCp10 == 0 then some .undefined else none

/-- FPSIDAccessCheck (40_fpsid_access.md R81), steps 1 to 5; `none` is Permit. -/
def accessCheck (c : Config) (x : AccessContext) : Option Fault :=
  if !c.featAA32EL1 then some .undefined
  else match x.el with
    | .el0 => some .undefined
    | .el1 => checkEL1 c x
    | .el2 => checkEL2 c x
    | .el3 => checkEL3 x

/-- The verdict of the check in a state. -/
def State.verdict (s : State) : Option Fault := accessCheck s.cfg s.ctx

end Sys2Proof.Machine
end

