-- ==== Sys2Proof/Machine/Flags.lean ====
section
/-! DEFINITION. Condition codes. Neither access form writes a flag (10_state.md R41), and what sets the flags is outside
the spec; what there is of conditions is whether the instruction's own condition holds. -/

namespace Sys2Proof.Machine

/-- Does the condition of the instruction hold? How a condition is evaluated is outside the spec: the result comes in as
ctx.cond_passed, for every form and every value of the condition field (10_state.md R41; 30_encoding.md R68;
40_fpsid_access.md R85 to R87; notes/assumptions/12.md). -/
def conditionHolds (x : AccessContext) : Bool := x.condPassed

end Sys2Proof.Machine
end

