-- ==== Sys2Proof/Machine/Operands.lean ====
section
/-! DEFINITION. The operand forms (30_encoding.md R71): the special register `<spec_reg>`, selected by `reg`, and the
general register `<Rt>`. There is no immediate. -/

namespace Sys2Proof.Machine

/-- The System register encoding space as far as the spec gives it (10_state.md R40; 30_encoding.md R61): `reg` =
0b0000 selects FPSID, and what the other fifteen values select is out of scope. -/
def specialRegister (reg : BitVec 4) : Option SpecialRegister :=
  if reg = 0b0000#4 then some .fpsid else none

/-- Reading a special register: FPSID is the 32-bit constant FPSID_VALUE (10_state.md R20, R22). -/
def State.readSpecial (s : State) : SpecialRegister → Word
  | .fpsid => s.fpsid

/-- A permitted read: `R[t] = <spec_reg>`, all 32 bits, bit i to bit i (40_fpsid_access.md R85; 20_memory.md R52). -/
def readIntoRegister (r : SpecialRegister) (rt : Fin 16) (s : State) : State := s.writeX rt (s.readSpecial r)

/-- A permitted write: every field of FPSID is read-only and the write block says `return;`, so nothing is written, and
`R[t]` is not read (40_fpsid_access.md R86; 10_state.md R22; 92_eei_decisions.md D15). -/
def writeFromRegister (r : SpecialRegister) (_rt : Fin 16) (s : State) : State :=
  match r with
  | .fpsid => s

end Sys2Proof.Machine
end

