-- ==== Sys2Proof/Machine/FpsidAccess.lean ====
section
/-! DEFINITION. The one instruction family: VMRS (read FPSID) and VMSR (write FPSID), 40_fpsid_access.md R85 to R87. The
two blocks of the source differ only in what a permitted access does, so each instruction is one line over `access`. -/

namespace Sys2Proof.Machine

/-- ConditionFailed() (40_fpsid_access.md R87): no register is written. (i) the no-op is always admitted; (ii) where the
check would fault, that fault is admitted too, and a free choice decides (notes/assumptions/9.md). -/
def conditionFailed (s : State) : Host.Outcome State Fault Refusal :=
  match s.verdict with
  | none => .next s
  | some f => if s.failedConditionFaults then raise f else .next s.draw

/-- The case split of R85 and R86: Permit does what the instruction does when permitted; a fault is raised. -/
def attempt (permitted : State → State) (s : State) : Host.Outcome State Fault Refusal :=
  match s.verdict with
  | none => .next (permitted s)
  | some f => raise f

/-- One access (40_fpsid_access.md R85, R86): the requirements, the condition, the check. The program counter is neither
read nor written (10_state.md R39). -/
def access (i : Instr) (permitted : State → State) (s : State) : Host.Outcome State Fault Refusal :=
  if !i.wellFormed then .refused .illFormedInstruction
  else if !s.cfg.hasAdvSimdFp then .refused .advSimdFpAbsent
  else if !fpsidWf s.cfg then .refused .illFormedConfiguration
  else if conditionHolds s.ctx then attempt permitted s
  else conditionFailed s

/-- `VMRS <Rt>, FPSID`, A32 (40_fpsid_access.md R85; 30_encoding.md R62). -/
def execVmrsA32 (cond : BitVec 4) (rt : Fin 16) (s : State) : Host.Outcome State Fault Refusal :=
  access (.vmrsA32 cond rt) (readIntoRegister .fpsid rt) s

/-- `VMRS <Rt>, FPSID`, T32 (40_fpsid_access.md R85; 30_encoding.md R63). -/
def execVmrsT32 (rt : Fin 16) (s : State) : Host.Outcome State Fault Refusal :=
  access (.vmrsT32 rt) (readIntoRegister .fpsid rt) s

/-- `VMSR FPSID, <Rt>`, A32 (40_fpsid_access.md R86; 30_encoding.md R64). -/
def execVmsrA32 (cond : BitVec 4) (rt : Fin 16) (s : State) : Host.Outcome State Fault Refusal :=
  access (.vmsrA32 cond rt) (writeFromRegister .fpsid rt) s

/-- `VMSR FPSID, <Rt>`, T32 (40_fpsid_access.md R86; 30_encoding.md R65). -/
def execVmsrT32 (rt : Fin 16) (s : State) : Host.Outcome State Fault Refusal :=
  access (.vmsrT32 rt) (writeFromRegister .fpsid rt) s

end Sys2Proof.Machine
end

