-- ==== Sys2Proof/Machine/Dispatch.lean ====
section
/-! DEFINITION. The meaning of every instruction, one arm per constructor of Instr. -/

namespace Sys2Proof.Machine

def exec (i : Instr) (s : State) : Host.Outcome State Fault Refusal :=
  match i with
  | .vmrsA32 cond rt => Sys2Proof.Machine.execVmrsA32 cond rt s
  | .vmrsT32 rt => Sys2Proof.Machine.execVmrsT32 rt s
  | .vmsrA32 cond rt => Sys2Proof.Machine.execVmsrA32 cond rt s
  | .vmsrT32 rt => Sys2Proof.Machine.execVmsrT32 rt s

end Sys2Proof.Machine
end

