-- ==== Sys2Proof/Machine/Fetch.lean ====
section
/-! DEFINITION. What `step` takes from the enclosing model: the presented word at the program counter, and the loading of
one instruction there. The fetch itself is not modelled (20_memory.md R53). -/

namespace Sys2Proof.Machine

/-- The assembled word presented at the program counter (20_memory.md R53; 10_state.md R39). -/
def State.presentedWord (s : State) : Option Word := s.mem.lookup s.pc.toNat

/-- Load one word of spec/opcode_table.json where the next step takes its instruction, and select what it is read with:
that table and the instruction set (notes/assumptions/10.md). -/
def State.loadTableWord (s : State) (nbits w : Nat) : State :=
  { s with
    cfg := { s.cfg with encodings := opcodeTable }
    mem := s.mem.store s.pc.toNat (tableWord nbits w)
    iset := tableWordISet (tableWord nbits w) }

/-- After the instruction: a next state moves on to the next instruction (40_fpsid_access.md R91), a fault or a refusal
ends the run as it stands (60_exceptions.md R116). -/
def afterExec : Host.Outcome State Fault Refusal → Host.Outcome State Fault Refusal
  | .next s => .next s.advance
  | .fault f => .fault f
  | .refused r => .refused r

end Sys2Proof.Machine
end

