-- ==== Sys2Proof/Machine/Step.lean ====
section
/-! DEFINITION. One step: take the presented word, decode it, run the instruction, move on (20_memory.md R53;
30_encoding.md R72; 40_fpsid_access.md R80, R91). -/

namespace Sys2Proof.Machine

/-- One step of the machine. It only calls the operations of Fetch, Decode and Dispatch; the word is decoded by the
machine's own match and mask words (00_scope.md R3). -/
def step (s : State) : Host.Outcome State Fault Refusal :=
  match s.presentedWord with
  | none => .refused .noInstruction
  | some w =>
    match decodeWith s.cfg.encodings s.iset w with
    | .error why => .refused (.undecodable why)
    | .ok i => afterExec (exec i s)

/-- The state with one opcode-table word loaded where `step` takes its next instruction. -/
def State.withFetchWord (s : State) (nbits w : Nat) : State := s.loadTableWord nbits w

end Sys2Proof.Machine
end

