-- ==== Sys2Proof/Safety.lean ====
section
/-! DEFINITION. The terms in which claims about the machine are made: when an access has a meaning, the invariant of a
run, which encoding tables can be read back, and the causes of the faults as a table, which is a second reading of the
access check. -/

namespace Sys2Proof.Safety

open Sys2Proof.Machine

/-- What 40_fpsid_access.md R85 and R86 require of the configuration: HAS_ADVSIMD_FP and FPSID_WF. -/
abbrev ConfigAdmitted (c : Config) : Prop := c.hasAdvSimdFp = true ∧ fpsidWf c = true

/-- The states of a run (70_reset_and_hazards.md R130): an admitted configuration, and the store of presented words in
its canonical form. -/
abbrev RunInvariant (s : State) : Prop := ConfigAdmitted s.cfg ∧ s.mem.wf = true

/-- The bits of a word that hold operands: Rt, and in A32 the condition (30_encoding.md R62 to R66). -/
def operandBits : ISet → Word
  | .a32 => 0xF000F000#32
  | .t32 => 0x0000F000#32

/-- A row an encoder can use: its pattern lies under its mask, and it fixes no operand bit. -/
abbrev RowAdmitted (iset : ISet) (r : EncodingRow) : Prop :=
  r.pattern &&& r.mask = r.pattern ∧ r.mask &&& operandBits iset = 0#32

/-- Two rows that no word fits at once: they differ in a bit both fix. -/
abbrev RowsApart (p q : EncodingRow) : Prop := (p.pattern ^^^ q.pattern) &&& (p.mask &&& q.mask) ≠ 0#32

/-- What a replacement of the match and mask words (00_scope.md R3) must satisfy for its words to be read back. -/
abbrev TableAdmitted (t : EncodingTable) : Prop :=
  RowAdmitted .a32 t.vmrsA32 ∧ RowAdmitted .a32 t.vmsrA32 ∧ RowAdmitted .t32 t.vmrsT32 ∧ RowAdmitted .t32 t.vmsrT32 ∧
  RowsApart t.vmrsA32 t.vmsrA32 ∧ RowsApart t.vmrsT32 t.vmsrT32

/-! The conditions of the steps of 40_fpsid_access.md R82 and R83, written out from the rule over the raw fields. -/

/-- EL3 is 32-bit, SCR.NS == '1' and NSACR.cp10 == '0': the disjunct that steps 1.2, 1.5 and 2.2 share. -/
abbrev NsacrDenies (c : Config) (x : AccessContext) : Prop :=
  c.featAA32EL3 = true ∧ x.el3Aarch32 = true ∧ x.scrNs = 0b1#1 ∧ x.nsacrCp10 = 0b0#1

/-- Steps 1.1 and 2.1. -/
abbrev Step11 (c : Config) (x : AccessContext) : Prop :=
  c.haveEL3 = true ∧ x.el3SddUndefPriority = true ∧ c.featAA64EL3 = true ∧ x.el3Aarch32 = false ∧ x.cptrEl3Tfp = 0b1#1

/-- Step 1.2. -/
abbrev Step12 (c : Config) (x : AccessContext) : Prop := NsacrDenies c x ∨ x.cpacrCp10 = 0b00#2

/-- Step 1.3. -/
abbrev Step13 (c : Config) (x : AccessContext) : Prop :=
  x.el2Enabled = true ∧ c.featAA64EL2 = true ∧ x.el2Aarch32 = false ∧ x.el2InHost = false ∧ x.cptrEl2Tfp = 0b1#1

/-- Step 1.4; the pattern 'x0' matches '00' and '10' (00_scope.md R7). -/
abbrev Step14 (c : Config) (x : AccessContext) : Prop :=
  x.el2InHost = true ∧ c.featAA64EL2 = true ∧ x.el2Aarch32 = false ∧ (x.cptrEl2Fpen = 0b00#2 ∨ x.cptrEl2Fpen = 0b10#2)

/-- Step 1.5. -/
abbrev Step15 (c : Config) (x : AccessContext) : Prop :=
  x.el2Enabled = true ∧ c.featAA32EL2 = true ∧ x.el2Aarch32 = true ∧ (NsacrDenies c x ∨ x.hcptrTcp10 = 0b1#1)

/-- Step 1.6. -/
abbrev Step16 (c : Config) (x : AccessContext) : Prop :=
  x.el2Enabled = true ∧ c.featAA64EL2 = true ∧ x.el2Aarch32 = false ∧ x.hcrEl2Tid0 = 0b1#1

/-- Step 1.7. -/
abbrev Step17 (c : Config) (x : AccessContext) : Prop :=
  x.el2Enabled = true ∧ c.featAA32EL2 = true ∧ x.el2Aarch32 = true ∧ x.hcrTid0 = 0b1#1

/-- Steps 1.8 and 2.3. -/
abbrev Step18 (c : Config) (x : AccessContext) : Prop :=
  c.haveEL3 = true ∧ c.featAA64EL3 = true ∧ x.el3Aarch32 = false ∧ x.cptrEl3Tfp = 0b1#1

/-- Step 2.2. -/
abbrev Step22 (c : Config) (x : AccessContext) : Prop :=
  x.el2Enabled = true ∧ (NsacrDenies c x ∨ x.hcptrTcp10 = 0b1#1)

/-- One row of the table of 60_exceptions.md R113: the Exception level (`none`: any), the cause, the outcome. -/
structure FaultRow where
  level : Option ExceptionLevel
  cause : Config → AccessContext → Bool
  outcome : Fault

/-- The row's condition holds for this access. -/
def FaultRow.applies (r : FaultRow) (c : Config) (x : AccessContext) : Bool :=
  r.level.all (fun l => l == x.el) && r.cause c x

/-- "EL3 exists, EL3 is 64-bit, CPTR_EL3.TFP == '1'", with the feature conjunct of 40_fpsid_access.md R82 step 1.8. -/
def causeEl3Trap (c : Config) (x : AccessContext) : Bool :=
  c.haveEL3 && c.featAA64EL3 && !x.el3Aarch32 && x.cptrEl3Tfp == 1

/-- "EL3 is 32-bit, SCR.NS == '1', NSACR.cp10 == '0'", with the feature conjunct of step 1.2. -/
def causeNsacr (c : Config) (x : AccessContext) : Bool :=
  c.featAA32EL3 && x.el3Aarch32 && x.scrNs == 1 && x.nsacrCp10 == 0

/-- The table of 60_exceptions.md R113, its sixteen rows in its order, the exact conditions being those of the cited steps
of 40_fpsid_access.md R81 to R84. Unlike the check it is flat: a row repeats no earlier row's negation. -/
def faultTable : List FaultRow := [
  ⟨none, fun c _ => !c.featAA32EL1, .undefined⟩,
  ⟨some .el0, fun _ _ => true, .undefined⟩,
  ⟨some .el1, fun c x => x.el3SddUndefPriority && causeEl3Trap c x, .undefined⟩,
  ⟨some .el1, fun c x => causeNsacr c x || x.cpacrCp10 == 0, .undefined⟩,
  ⟨some .el1, fun c x => x.el2Enabled && c.featAA64EL2 && !x.el2Aarch32 && !x.el2InHost && x.cptrEl2Tfp == 1,
    .systemAccessTrap .el2 0x07⟩,
  ⟨some .el1, fun c x => x.el2InHost && c.featAA64EL2 && !x.el2Aarch32 && (x.cptrEl2Fpen == 0b00 || x.cptrEl2Fpen == 0b10),
    .systemAccessTrap .el2 0x07⟩,
  ⟨some .el1, fun c x => x.el2Enabled && c.featAA32EL2 && x.el2Aarch32 && (causeNsacr c x || x.hcptrTcp10 == 1),
    .hypTrap 0x08⟩,
  ⟨some .el1, fun c x => x.el2Enabled && c.featAA64EL2 && !x.el2Aarch32 && x.hcrEl2Tid0 == 1,
    .systemAccessTrap .el2 0x08⟩,
  ⟨some .el1, fun c x => x.el2Enabled && c.featAA32EL2 && x.el2Aarch32 && x.hcrTid0 == 1, .hypTrap 0x08⟩,
  ⟨some .el1, fun c x => causeEl3Trap c x && x.el3SddUndef, .undefined⟩,
  ⟨some .el1, fun c x => causeEl3Trap c x && !x.el3SddUndef, .systemAccessTrap .el3 0x07⟩,
  ⟨some .el2, fun c x => x.el3SddUndefPriority && causeEl3Trap c x, .undefined⟩,
  ⟨some .el2, fun c x => x.el2Enabled && (causeNsacr c x || x.hcptrTcp10 == 1), .hypTrap 0x00⟩,
  ⟨some .el2, fun c x => causeEl3Trap c x && x.el3SddUndef, .undefined⟩,
  ⟨some .el2, fun c x => causeEl3Trap c x && !x.el3SddUndef, .systemAccessTrap .el3 0x07⟩,
  ⟨some .el3, fun _ x => x.cpacrCp10 == 0, .undefined⟩]

/-- The first row that applies decides (60_exceptions.md R115); with none the access is permitted. -/
def firstFault : List FaultRow → Config → AccessContext → Option Fault
  | [], _, _ => none
  | r :: rest, c, x => if r.applies c x then some r.outcome else firstFault rest c x

/-- The six fault outcomes of 40_fpsid_access.md R80. -/
def sixFaults : List Fault :=
  [.undefined, .systemAccessTrap .el2 0x07, .systemAccessTrap .el2 0x08, .systemAccessTrap .el3 0x07, .hypTrap 0x08,
    .hypTrap 0x00]

end Sys2Proof.Safety
end

