-- ==== Sys2Proof/Certificates/Slice0/Obligations.lean ====
section
/-! DEFINITION. The statements for the provers. Each docstring says which statement of spec/ it formalises, and where it
rests on a choice of the spec or of this model instead of on the source's text. -/

open Sys2Proof Sys2Proof.Machine Sys2Proof.Safety

/-! ## The register FPSID -/

/-- 10_state.md R20, R21: FPSID is 32 bits, and its six fields cover them with no gap and no overlap: the value is the
shifted sum of the fields, each field reads back, every 32-bit value is the concatenation of the fields read from it (no
bit is reserved), and every field is read-only: no instruction changes it. -/
def Obligations.FpsidLayoutIsSixFields : Prop :=
  (∀ c : Config,
    fpsidValue c = (c.implementer.setWidth 32 <<< 24) ||| (c.sw.setWidth 32 <<< 23) ||| (c.subarch.setWidth 32 <<< 16)
      ||| (c.partNum.setWidth 32 <<< 8) ||| (c.variant.setWidth 32 <<< 4) ||| c.revision.setWidth 32 ∧
    fpsidImplementer (fpsidValue c) = c.implementer ∧ fpsidSw (fpsidValue c) = c.sw ∧
    fpsidSubarch (fpsidValue c) = c.subarch ∧ fpsidPartNum (fpsidValue c) = c.partNum ∧
    fpsidVariant (fpsidValue c) = c.variant ∧ fpsidRevision (fpsidValue c) = c.revision) ∧
  (∀ (c : Config) (v : Word),
    fpsidValue { c with
      implementer := fpsidImplementer v, sw := fpsidSw v, subarch := fpsidSubarch v, partNum := fpsidPartNum v,
      variant := fpsidVariant v, revision := fpsidRevision v } = v) ∧
  (∀ (s t : State) (i : Instr), exec i s = .next t →
    t.cfg.implementer = s.cfg.implementer ∧ t.cfg.sw = s.cfg.sw ∧ t.cfg.subarch = s.cfg.subarch ∧
    t.cfg.partNum = s.cfg.partNum ∧ t.cfg.variant = s.cfg.variant ∧ t.cfg.revision = s.cfg.revision)

/-- 10_state.md R24, R27: in Armv8-A the only permitted SW is 0b0 and the permitted Subarchitecture values are 0b0000011
and 0b0000100; any other value leaves the configuration ill-formed. That an access is then refused is the spec's decision
D20. -/
def Obligations.Armv8PermitsOneSwAndTwoSubarchitectures : Prop :=
  ∀ c : Config, c.armv8a = true → fpsidWf c = true →
    c.sw = 0b0#1 ∧ (c.subarch = 0b0000011#7 ∨ c.subarch = 0b0000100#7) ∧
    swMeaning c.sw = .hardware ∧
    (subarchMeaning c.subarch = .vfpv3Null ∨ subarchMeaning c.subarch = .vfpv3CommonV3) ∧
    versionIsInMvfr c.subarch = true

/-- 10_state.md R26: a Subarchitecture with bit 22 of FPSID clear and not listed (0x05 to 0x3F) is reserved, one with
bit 22 set is not designed by Arm. That a reserved value makes the configuration ill-formed is decision D20, that the
designer bit is an equivalence decision D21. -/
def Obligations.ReservedSubarchitecturesAreIllFormed : Prop :=
  ∀ c : Config,
    (subarchMeaning c.subarch = .reserved ↔ 0x05 ≤ c.subarch.toNat ∧ c.subarch.toNat ≤ 0x3F) ∧
    (subarchMeaning c.subarch = .implementersOwn ↔ 0x40 ≤ c.subarch.toNat) ∧
    ((fpsidValue c).getLsbD 22 = true ↔ 0x40 ≤ c.subarch.toNat) ∧
    (0x05 ≤ c.subarch.toNat → c.subarch.toNat ≤ 0x3F → fpsidWf c = false) ∧
    (fpsidWf c = true → (c.subarchDesignerIsArm = true ↔ (fpsidValue c).getLsbD 22 = false))

/-- 10_state.md R33: FPSID_WF is the conjunction of its clauses (a) to (f), and under ARMV8A it leaves exactly two shapes
of FPSID[23:16]. Clauses (b), (e), (f) are the spec's decisions D21 and D25. -/
def Obligations.WellFormedConfigurationsHaveTwoShapesInArmv8 : Prop :=
  ∀ c : Config,
    (fpsidWf c = true ↔
      (c.subarch.getLsbD 6 = false → c.subarch.toNat ≤ 0x04) ∧
      (c.subarchDesignerIsArm = true ↔ c.subarch.getLsbD 6 = false) ∧
      (c.armv8a = true → c.sw = 0) ∧
      (c.armv8a = true → c.subarch = 0x03 ∨ c.subarch = 0x04) ∧
      (c.subarch = 0x03 → c.fpscrTrapEnables = false) ∧
      (c.subarch = 0x04 → c.fpscrTrapEnables = true)) ∧
    (c.armv8a = true → fpsidWf c = true →
      (fpsidValue c &&& 0x00FF0000#32 = 0x00030000#32 ∧ c.fpscrTrapEnables = false) ∨
      (fpsidValue c &&& 0x00FF0000#32 = 0x00040000#32 ∧ c.fpscrTrapEnables = true))

/-! ## The access check -/

/-- 40_fpsid_access.md R81, step 1 (10_state.md R32): without FEAT_AA32EL1 every access is UNDEFINED, before anything
else is looked at; step 2: so is every access at EL0, whatever the control fields hold; otherwise the check of the
current Exception level decides. -/
def Obligations.CheckDispatchesOnFeatureAndLevel : Prop :=
  ∀ (c : Config) (x : AccessContext),
    (c.featAA32EL1 = false → accessCheck c x = some .undefined) ∧
    (c.featAA32EL1 = true → x.el = .el0 → accessCheck c x = some .undefined) ∧
    (c.featAA32EL1 = true → x.el = .el1 → accessCheck c x = checkEL1 c x) ∧
    (c.featAA32EL1 = true → x.el = .el2 → accessCheck c x = checkEL2 c x) ∧
    (c.featAA32EL1 = true → x.el = .el3 → accessCheck c x = checkEL3 x)

/-- 40_fpsid_access.md R82: at EL1 the first true condition of steps 1.1 to 1.8 decides, and with none the access is
permitted; where step 1.2 does not hold, step 1.5 comes down to its HCPTR.TCP10 disjunct (note c), and step 1.1 is step 1.8
with EL3SDDUndefPriority() (note d). The conditions are written out over the raw control fields in Safety.lean. -/
def Obligations.CheckAtEl1FollowsItsNineSteps : Prop :=
  ∀ (c : Config) (x : AccessContext), c.featAA32EL1 = true → x.el = .el1 →
    (Step11 c x → accessCheck c x = some .undefined) ∧
    (¬Step11 c x → Step12 c x → accessCheck c x = some .undefined) ∧
    (¬Step11 c x → ¬Step12 c x → Step13 c x → accessCheck c x = some (.systemAccessTrap .el2 0x07)) ∧
    (¬Step11 c x → ¬Step12 c x → ¬Step13 c x → Step14 c x → accessCheck c x = some (.systemAccessTrap .el2 0x07)) ∧
    (¬Step11 c x → ¬Step12 c x → ¬Step13 c x → ¬Step14 c x → Step15 c x → accessCheck c x = some (.hypTrap 0x08)) ∧
    (¬Step11 c x → ¬Step12 c x → ¬Step13 c x → ¬Step14 c x → ¬Step15 c x → Step16 c x →
      accessCheck c x = some (.systemAccessTrap .el2 0x08)) ∧
    (¬Step11 c x → ¬Step12 c x → ¬Step13 c x → ¬Step14 c x → ¬Step15 c x → ¬Step16 c x → Step17 c x →
      accessCheck c x = some (.hypTrap 0x08)) ∧
    (¬Step11 c x → ¬Step12 c x → ¬Step13 c x → ¬Step14 c x → ¬Step15 c x → ¬Step16 c x → ¬Step17 c x → Step18 c x →
      x.el3SddUndef = true → accessCheck c x = some .undefined) ∧
    (¬Step11 c x → ¬Step12 c x → ¬Step13 c x → ¬Step14 c x → ¬Step15 c x → ¬Step16 c x → ¬Step17 c x → Step18 c x →
      x.el3SddUndef = false → accessCheck c x = some (.systemAccessTrap .el3 0x07)) ∧
    (¬Step11 c x → ¬Step12 c x → ¬Step13 c x → ¬Step14 c x → ¬Step15 c x → ¬Step16 c x → ¬Step17 c x → ¬Step18 c x →
      accessCheck c x = none) ∧
    (¬Step12 c x → (Step15 c x ↔
      x.el2Enabled = true ∧ c.featAA32EL2 = true ∧ x.el2Aarch32 = true ∧ x.hcptrTcp10 = 0b1#1)) ∧
    (Step11 c x ↔ Step18 c x ∧ x.el3SddUndefPriority = true)

/-- 40_fpsid_access.md R83: at EL2 the first true condition of steps 2.1 to 2.3 decides, and with none the access is
permitted; step 2.2 tests EL2Enabled() and neither FEAT_AA32EL2 nor ELUsingAArch32(EL2). -/
def Obligations.CheckAtEl2FollowsItsFourSteps : Prop :=
  ∀ (c : Config) (x : AccessContext), c.featAA32EL1 = true → x.el = .el2 →
    (Step11 c x → accessCheck c x = some .undefined) ∧
    (¬Step11 c x → Step22 c x → accessCheck c x = some (.hypTrap 0x00)) ∧
    (¬Step11 c x → ¬Step22 c x → Step18 c x → x.el3SddUndef = true → accessCheck c x = some .undefined) ∧
    (¬Step11 c x → ¬Step22 c x → Step18 c x → x.el3SddUndef = false →
      accessCheck c x = some (.systemAccessTrap .el3 0x07)) ∧
    (¬Step11 c x → ¬Step22 c x → ¬Step18 c x → accessCheck c x = none)

/-- 40_fpsid_access.md R84: at EL3 the access is UNDEFINED when CPACR.cp10 is '00' and permitted otherwise, and nothing
else is consulted: two accesses at EL3 with the same CPACR.cp10 have the same verdict, in any two configurations that have
FEAT_AA32EL1. -/
def Obligations.CheckAtEl3ConsultsCpacrAlone : Prop :=
  (∀ (c : Config) (x : AccessContext), c.featAA32EL1 = true → x.el = .el3 →
    (x.cpacrCp10 = 0b00#2 → accessCheck c x = some .undefined) ∧
    (x.cpacrCp10 ≠ 0b00#2 → accessCheck c x = none)) ∧
  (∀ (c d : Config) (x y : AccessContext), c.featAA32EL1 = true → d.featAA32EL1 = true → x.el = .el3 → y.el = .el3 →
    x.cpacrCp10 = y.cpacrCp10 → accessCheck c x = accessCheck d y)

/-- 40_fpsid_access.md R83 note (b): at EL2 the verdict does not depend on CPACR.cp10, CPTR_EL2.TFP, CPTR_EL2.FPEN,
HCR.TID0, HCR_EL2.TID0 or ELIsInHost(EL2), nor, by note (a), on ELUsingAArch32(EL2) or FEAT_AA32EL2 (nor on FEAT_AA64EL2,
which no step of R83 names). -/
def Obligations.CheckAtEl2IgnoresEl1Controls : Prop :=
  ∀ (c : Config) (x : AccessContext), x.el = .el2 →
    ∀ (cpacr fpen : BitVec 2) (tfp tid0 el2Tid0 : BitVec 1) (host aarch32 f32 f64 : Bool),
      accessCheck { c with featAA32EL2 := f32, featAA64EL2 := f64 }
        { x with cpacrCp10 := cpacr, cptrEl2Fpen := fpen, cptrEl2Tfp := tfp, hcrTid0 := tid0, hcrEl2Tid0 := el2Tid0,
                 el2InHost := host, el2Aarch32 := aarch32 } = accessCheck c x

/-- 60_exceptions.md R113 and R115: of the sixteen rows of the fault table, the first that applies is the fault reported,
and an access to which none applies is permitted. `faultTable` writes the rows out flat (Safety.lean). -/
def Obligations.CheckReportsTheFirstRowOfTheFaultTable : Prop :=
  ∀ (c : Config) (x : AccessContext), accessCheck c x = firstFault faultTable c x

/-- 40_fpsid_access.md section 4, items 3 to 5 and 8: which faults can arise from which Exception level. -/
def Obligations.FaultCodesByExceptionLevel : Prop :=
  ∀ (c : Config) (x : AccessContext) (f : Fault), accessCheck c x = some f →
    f ∈ sixFaults ∧
    (x.el = .el0 → f = .undefined) ∧
    (x.el = .el3 → f = .undefined) ∧
    (f = .hypTrap 0x08 → x.el = .el1) ∧
    (∀ code, f = .systemAccessTrap .el2 code → x.el = .el1) ∧
    (f = .hypTrap 0x00 → x.el = .el2) ∧
    (f = .systemAccessTrap .el3 0x07 → x.el = .el1 ∨ x.el = .el2)

/-- 60_exceptions.md section 6: every trap is owned by a control that is set: a fault that is not UNDEFINED names the
Exception level's control that caused it (the converse of the steps). -/
def Obligations.EveryTrapHasItsControlSet : Prop :=
  ∀ (c : Config) (x : AccessContext),
    (accessCheck c x = some (.systemAccessTrap .el2 0x07) → c.featAA64EL2 = true ∧ x.el2Aarch32 = false ∧
      ((x.el2InHost = false ∧ x.el2Enabled = true ∧ x.cptrEl2Tfp = 1) ∨
        (x.el2InHost = true ∧ x.cptrEl2Fpen.getLsbD 0 = false))) ∧
    (accessCheck c x = some (.systemAccessTrap .el2 0x08) →
      x.el2Enabled = true ∧ c.featAA64EL2 = true ∧ x.el2Aarch32 = false ∧ x.hcrEl2Tid0 = 1) ∧
    (accessCheck c x = some (.hypTrap 0x08) →
      x.el2Enabled = true ∧ c.featAA32EL2 = true ∧ x.el2Aarch32 = true ∧ (x.hcptrTcp10 = 1 ∨ x.hcrTid0 = 1)) ∧
    (accessCheck c x = some (.hypTrap 0x00) → x.el2Enabled = true ∧
      (x.hcptrTcp10 = 1 ∨ NsacrDenies c x)) ∧
    (accessCheck c x = some (.systemAccessTrap .el3 0x07) →
      c.haveEL3 = true ∧ c.featAA64EL3 = true ∧ x.el3Aarch32 = false ∧ x.cptrEl3Tfp = 1 ∧ x.el3SddUndef = false)

/-- 40_fpsid_access.md section 4, item 9: a sufficient condition for Permit at EL1; item 10: the exact condition at EL2. -/
def Obligations.PermitConditionsAtEl1AndEl2 : Prop :=
  ∀ (c : Config) (x : AccessContext),
    (x.el = .el1 → c.featAA32EL1 = true → x.cpacrCp10 ≠ 0b00#2 → x.el2Enabled = false → x.el2InHost = false →
      ¬NsacrDenies c x → ¬Step18 c x → accessCheck c x = none) ∧
    (x.el = .el2 →
      (accessCheck c x = none ↔ c.featAA32EL1 = true ∧
        ¬(x.el2Enabled = true ∧ (NsacrDenies c x ∨ x.hcptrTcp10 = 0b1#1)) ∧ ¬Step18 c x))

/-! ## The instructions -/

/-- 40_fpsid_access.md R85 (the pseudocode's Permit branch): VMRS under an admitted configuration, a condition that holds
and a check that permits COMPLETES, x[t] being FPSID_VALUE and nothing else changed, for t 0 to 14 and, in A32, every
condition but 0b1111. -/
def Obligations.VmrsPermittedCopiesFpsidToRt : Prop :=
  ∀ (s : State) (cond : BitVec 4) (rt : Fin 16),
    s.cfg.hasAdvSimdFp = true → fpsidWf s.cfg = true → accessCheck s.cfg s.ctx = none → rt ≠ 15 →
    s.ctx.condPassed = true →
    (cond ≠ 0b1111#4 → exec (.vmrsA32 cond rt) s = .next { s with x := s.x.set rt.val (fpsidValue s.cfg) }) ∧
    exec (.vmrsT32 rt) s = .next { s with x := s.x.set rt.val (fpsidValue s.cfg) }

/-- 40_fpsid_access.md R86 (the pseudocode's Permit branch): VMSR under the same conditions COMPLETES and nothing is
written: the state, FPSID and x[t] included, is as it was, whatever x[t] holds. -/
def Obligations.VmsrPermittedWritesNothing : Prop :=
  ∀ (s : State) (cond : BitVec 4) (rt : Fin 16),
    s.cfg.hasAdvSimdFp = true → fpsidWf s.cfg = true → accessCheck s.cfg s.ctx = none → rt ≠ 15 →
    s.ctx.condPassed = true →
    (cond ≠ 0b1111#4 → exec (.vmsrA32 cond rt) s = .next s) ∧ exec (.vmsrT32 rt) s = .next s

/-- 70_reset_and_hazards.md section 2: the boot conditions taken together suffice for a read and a write to complete at
EL1, EL2 or EL3. The conditions are the spec's own derivation (R131, items 1 to 7). -/
def Obligations.BootConditionsSufficeForAccess : Prop :=
  ∀ (s : State) (cond : BitVec 4) (rt : Fin 16), rt ≠ 15 → cond ≠ 0b1111#4 → s.ctx.condPassed = true →
    fpsidWf s.cfg = true →
    (s.cfg.featAA32EL1 = true ∧ s.cfg.hasAdvSimdFp = true) →
    s.ctx.el ≠ .el0 →
    ((s.ctx.el = .el1 ∨ s.ctx.el = .el3) → s.ctx.cpacrCp10 ≠ 0b00#2) →
    ((s.ctx.el = .el1 ∨ s.ctx.el = .el2) → s.cfg.featAA32EL3 = true → s.ctx.el3Aarch32 = true → s.ctx.scrNs = 1 →
      s.ctx.nsacrCp10 = 1) →
    (s.ctx.el = .el1 →
      (s.ctx.el2Enabled = false ∧ s.ctx.el2InHost = false) ∨
      (¬(s.ctx.el2Aarch32 = false ∧ s.ctx.el2InHost = false ∧ s.ctx.cptrEl2Tfp = 1) ∧
        ¬(s.ctx.el2Aarch32 = false ∧ s.ctx.el2InHost = true ∧ s.ctx.cptrEl2Fpen.getLsbD 0 = false) ∧
        ¬(s.ctx.el2Aarch32 = true ∧ s.ctx.hcptrTcp10 = 1) ∧
        ¬(s.ctx.el2Aarch32 = false ∧ s.ctx.hcrEl2Tid0 = 1) ∧ ¬(s.ctx.el2Aarch32 = true ∧ s.ctx.hcrTid0 = 1))) →
    (s.ctx.el = .el2 → s.ctx.el2Enabled = true → s.ctx.hcptrTcp10 = 0) →
    ((s.ctx.el = .el1 ∨ s.ctx.el = .el2) → s.cfg.haveEL3 = true → s.cfg.featAA64EL3 = true → s.ctx.el3Aarch32 = false →
      s.ctx.cptrEl3Tfp = 0) →
    exec (.vmrsT32 rt) s = .next { s with x := s.x.set rt.val (fpsidValue s.cfg) } ∧
    exec (.vmrsA32 cond rt) s = .next { s with x := s.x.set rt.val (fpsidValue s.cfg) } ∧
    exec (.vmsrT32 rt) s = .next s ∧ exec (.vmsrA32 cond rt) s = .next s

/-- 40_fpsid_access.md R85, R86 (`f -> raise f`): where the condition holds and the check gives a fault, each of the four
forms ends in exactly that fault; a write that is not permitted faults though a permitted one would do nothing. -/
def Obligations.AccessRaisesTheFaultOfTheCheck : Prop :=
  ∀ (s : State) (cond : BitVec 4) (rt : Fin 16) (f : Fault),
    s.cfg.hasAdvSimdFp = true → fpsidWf s.cfg = true → accessCheck s.cfg s.ctx = some f → rt ≠ 15 →
    s.ctx.condPassed = true →
    (cond ≠ 0b1111#4 → exec (.vmrsA32 cond rt) s = .fault f ∧ exec (.vmsrA32 cond rt) s = .fault f) ∧
    exec (.vmrsT32 rt) s = .fault f ∧ exec (.vmsrT32 rt) s = .fault f

/-- 40_fpsid_access.md R80: under an admitted configuration, with the condition passed, an access produces exactly one of
the seven outcomes: it completes, the read's x[t] then holding FPSID and the write having changed nothing, or it ends in
one of the six faults. -/
def Obligations.AccessHasOneOfSevenOutcomes : Prop :=
  ∀ (s : State) (i : Instr), i.wellFormed = true → s.cfg.hasAdvSimdFp = true → fpsidWf s.cfg = true →
    s.ctx.condPassed = true →
    (∃ t, exec i s = .next t ∧ accessCheck s.cfg s.ctx = none ∧
      ((∃ cond rt, i = .vmrsA32 cond rt ∧ t = { s with x := s.x.set rt.val (fpsidValue s.cfg) }) ∨
        (∃ rt, i = .vmrsT32 rt ∧ t = { s with x := s.x.set rt.val (fpsidValue s.cfg) }) ∨
        (∃ cond rt, i = .vmsrA32 cond rt ∧ t = s) ∨ (∃ rt, i = .vmsrT32 rt ∧ t = s))) ∨
    (∃ f, exec i s = .fault f ∧ accessCheck s.cfg s.ctx = some f ∧ f ∈ sixFaults)

/-- 40_fpsid_access.md R87 (the spec's decision D8), for every form and every value of the condition field: where
ctx.cond_passed is false, no register is written: a permitting check
gives the no-op; a faulting check gives the no-op or that fault, and nothing else. `draws` is the model's own counter of
the free choice (notes/assumptions/9.md); the statement holds for every value of the choice. -/
def Obligations.FailedConditionIsNoOpOrTheFault : Prop :=
  ∀ (s : State) (i : Instr), i.wellFormed = true → s.cfg.hasAdvSimdFp = true → fpsidWf s.cfg = true →
    s.ctx.condPassed = false →
    (accessCheck s.cfg s.ctx = none → exec i s = .next s) ∧
    (∀ f, accessCheck s.cfg s.ctx = some f →
      exec i s = .next { s with draws := s.draws + 1 } ∨ exec i s = .fault f)

/-- 10_state.md R32 and R33 as the spec decides them (D4, D20): without Advanced SIMD and floating point, or under an
ill-formed configuration, no access is given a meaning. Which name is reported where both requirements fail is the model's
choice (notes/assumptions/15.md). -/
def Obligations.AccessIsRefusedWithoutAdmittedConfiguration : Prop :=
  ∀ (s : State) (i : Instr), i.wellFormed = true →
    (s.cfg.hasAdvSimdFp = false → exec i s = .refused .advSimdFpAbsent) ∧
    (s.cfg.hasAdvSimdFp = true → fpsidWf s.cfg = false → exec i s = .refused .illFormedConfiguration)

/-- 92_eei_decisions.md D6 and 30_encoding.md R66, R68: a term with t = 15, or with the A32 condition 0b1111, is given no
meaning by the machine either. That this is reported before what the configuration lacks is the model's choice
(notes/assumptions/15.md). -/
def Obligations.TermsOutsideTheSubsetAreRefused : Prop :=
  ∀ (s : State) (cond : BitVec 4) (rt : Fin 16),
    exec (.vmrsA32 cond 15) s = .refused .illFormedInstruction ∧
    exec (.vmrsT32 15) s = .refused .illFormedInstruction ∧
    exec (.vmsrA32 cond 15) s = .refused .illFormedInstruction ∧
    exec (.vmsrT32 15) s = .refused .illFormedInstruction ∧
    exec (.vmrsA32 0b1111#4 rt) s = .refused .illFormedInstruction ∧
    exec (.vmsrA32 0b1111#4 rt) s = .refused .illFormedInstruction

/-- 40_fpsid_access.md section 4, items 6 and 7, with 20_memory.md R50 and 10_state.md R39, R41: the frame of the four
instructions. The only architectural state either can change is x[t] of the read; a failed condition under a faulting
check also advances the model's own counter of free choices (notes/assumptions/9.md). -/
def Obligations.AccessFrame : Prop :=
  ∀ (s t : State) (i : Instr), exec i s = .next t →
    t.cfg = s.cfg ∧ fpsidValue t.cfg = fpsidValue s.cfg ∧ t.pc = s.pc ∧ t.iset = s.iset ∧ t.ctx = s.ctx ∧
    t.pending = s.pending ∧ (∀ a, t.mem.lookup a = s.mem.lookup a) ∧ t.mem = s.mem ∧
    (∀ j : Fin 16, j ≠ i.rt → t.readX j = s.readX j) ∧
    (∀ cond rt, (i = .vmsrA32 cond rt ∨ i = .vmsrT32 rt) → t.x = s.x) ∧
    (s.ctx.condPassed = true → t.draws = s.draws) ∧ (t.draws = s.draws ∨ t.draws = s.draws + 1)

/-- 40_fpsid_access.md section 4, item 1: the read and the write have the same outcome up to the effect of Completed, for
any two registers: both complete, or both raise the same fault, or both are refused for the same reason. Where the
condition has failed under a faulting check, that the two agree is the model's choice: both take the free choice of the
same draw (notes/assumptions/9.md), where R87 gives each of them both outcomes. -/
def Obligations.ReadAndWriteHaveTheSameOutcome : Prop :=
  ∀ (s : State) (cond : BitVec 4) (rt ru : Fin 16), rt ≠ 15 → ru ≠ 15 →
    ((∃ t, exec (.vmrsA32 cond rt) s = .next t) ↔ ∃ u, exec (.vmsrA32 cond ru) s = .next u) ∧
    (∀ f, exec (.vmrsA32 cond rt) s = .fault f ↔ exec (.vmsrA32 cond ru) s = .fault f) ∧
    (∀ r, exec (.vmrsA32 cond rt) s = .refused r ↔ exec (.vmsrA32 cond ru) s = .refused r) ∧
    ((∃ t, exec (.vmrsT32 rt) s = .next t) ↔ ∃ u, exec (.vmsrT32 ru) s = .next u) ∧
    (∀ f, exec (.vmrsT32 rt) s = .fault f ↔ exec (.vmsrT32 ru) s = .fault f) ∧
    (∀ r, exec (.vmrsT32 rt) s = .refused r ↔ exec (.vmsrT32 ru) s = .refused r)

/-- 40_fpsid_access.md section 4, item 2: with the condition passed the outcome is a function of the configuration and the
context: two states that share them, whatever else they hold (the counter of free choices included), complete together, or
raise the same fault, or are refused for the same reason. -/
def Obligations.OutcomeIsDecidedByConfigurationAndContext : Prop :=
  ∀ (s u : State) (i : Instr), s.cfg = u.cfg → s.ctx = u.ctx → s.ctx.condPassed = true →
    (∀ t, exec i s = .next t → ∃ v, exec i u = .next v ∧ t.draws = s.draws ∧ v.draws = u.draws) ∧
    (∀ f, exec i s = .fault f → exec i u = .fault f) ∧ (∀ r, exec i s = .refused r → exec i u = .refused r)

/-- 40_fpsid_access.md R86 (decision D15): VMSR does not read x[t]. Running it with any other register file gives the same
outcome, and the register file it was given. -/
def Obligations.VmsrDoesNotReadTheRegisters : Prop :=
  ∀ (s : State) (y : Vector Word 16) (cond : BitVec 4) (rt : Fin 16) (i : Instr),
    (i = .vmsrA32 cond rt ∨ i = .vmsrT32 rt) →
    (∀ t, exec i s = .next t → exec i { s with x := y } = .next { t with x := y }) ∧
    (∀ f, exec i s = .fault f → exec i { s with x := y } = .fault f) ∧
    (∀ r, exec i s = .refused r → exec i { s with x := y } = .refused r)

/-- 20_memory.md R52 and 40_fpsid_access.md R85 (corner cases; the bit order is the spec's decision D27): a permitted read
puts bit k of FPSID into bit k of x[t] for every k, no bit of the old value surviving. -/
def Obligations.VmrsCopiesBitForBit : Prop :=
  ∀ (s : State) (old : Word) (rt : Fin 16) (i : Instr) (cond : BitVec 4),
    (i = .vmrsT32 rt ∨ i = .vmrsA32 cond rt) → i.wellFormed = true →
    s.cfg.hasAdvSimdFp = true → fpsidWf s.cfg = true → accessCheck s.cfg s.ctx = none → s.ctx.condPassed = true →
    ∃ t, exec i (s.writeX rt old) = .next t ∧ ∀ k, (t.readX rt).getLsbD k = (fpsidValue s.cfg).getLsbD k

/-- 20_memory.md R54: the read is idempotent: with the condition passed, a second read into the same register changes
nothing. -/
def Obligations.ReadingTwiceIsReadingOnce : Prop :=
  ∀ (s t : State) (i : Instr) (cond : BitVec 4) (rt : Fin 16), (i = .vmrsA32 cond rt ∨ i = .vmrsT32 rt) →
    s.ctx.condPassed = true → exec i s = .next t → exec i t = .next t

/-- 40_fpsid_access.md R86 (corner cases): a write followed by a read returns FPSID_VALUE, whatever value was written
from. -/
def Obligations.ReadAfterWriteReturnsFpsid : Prop :=
  ∀ (s t : State) (ct cu : BitVec 4) (rt ru : Fin 16), s.ctx.condPassed = true → ru ≠ 15 →
    ((exec (.vmsrA32 ct rt) s = .next t → cu ≠ 0b1111#4 →
      exec (.vmrsA32 cu ru) t = .next (s.writeX ru (fpsidValue s.cfg))) ∧
    (exec (.vmsrT32 rt) s = .next t → exec (.vmrsT32 ru) t = .next (s.writeX ru (fpsidValue s.cfg))))

/-! ## Encoding -/

/-- 30_encoding.md R62 to R66 (the bits are the spec's general knowledge): decoding the word of a well-formed instruction,
in its own instruction set, gives the instruction back, with every operand at every value. -/
def Obligations.DecodeOfEncodeIsTheInstruction : Prop :=
  ∀ i : Instr, i.wellFormed = true → decode i.iset (encode i) = .ok i

/-- 30_encoding.md R66, R72 (the bits are the spec's general knowledge): every word that decodes is the word of exactly the
instruction decoded, which is well-formed and of the instruction set decoded, and its `reg` field selects FPSID (R61). -/
def Obligations.EncodeOfDecodeIsTheWord : Prop :=
  ∀ (iset : ISet) (w : Word) (i : Instr), decode iset w = .ok i →
    i.wellFormed = true ∧ i.iset = iset ∧ encode i = w ∧ specialRegister (regField w) = some .fpsid

/-- 30_encoding.md R61, R66, R67, R68, R72: what the decoder refuses. Clauses 1, 3, 6, 7 and 8 name the refusal too;
clause 2 leaves two names, clauses 4 and 5 say only that the word does not decode. The bit positions are the spec's general
knowledge, refusing is its decisions D6, D13, D14; the names, and which is reported for a word that fails in more than one
way (condition 0b1111 with t = 15), are the model's choice (notes/assumptions/13.md). -/
def Obligations.DecoderRefusesByName : Prop :=
  (∀ (iset : ISet) (w : Word), regField w ≠ 0b0000#4 → decode iset w = .error .outOfScope) ∧
  (∀ (iset : ISet) (w : Word), w &&& 0x000000EF#32 ≠ 0#32 → regField w = 0b0000#4 →
    decode iset w = .error .shouldBeZero ∨ decode iset w = .error .outOfScope) ∧
  (∀ (iset : ISet) (i : Instr) (k : Fin 32), i.wellFormed = true → i.iset = iset →
    (0x000000EF#32).getLsbD k.val = true → decode iset (encode i ||| (1#32 <<< k.val)) = .error .shouldBeZero) ∧
  (∀ (iset : ISet) (w : Word) (i : Instr), rtField w = 15 → decode iset w ≠ .ok i) ∧
  (∀ (w : Word) (i : Instr), condField w = 0b1111#4 → decode .a32 w ≠ .ok i) ∧
  (∀ cond, cond ≠ 0b1111#4 → decode .a32 (encode (.vmrsA32 cond 15)) = .error .register15 ∧
    decode .a32 (encode (.vmsrA32 cond 15)) = .error .register15) ∧
  (decode .t32 (encode (.vmrsT32 15)) = .error .register15 ∧ decode .t32 (encode (.vmsrT32 15)) = .error .register15) ∧
  (∀ rt, decode .a32 (encode (.vmrsA32 0b1111#4 rt)) = .error .condition1111 ∧
    decode .a32 (encode (.vmsrA32 0b1111#4 rt)) = .error .condition1111)

/-- 30_encoding.md R62 to R65 and 95_test_vectors.md E1, E3, E5, E8, E9, E10, E16: words written out from the spec's
encodings decode to the instructions they stand for. -/
def Obligations.SpecWordsDecode : Prop :=
  decode .a32 0b1110_1110_1111_0000_0000_1010_0001_0000#32 = .ok (.vmrsA32 0b1110#4 0) ∧
  decode .a32 0b0001_1110_1111_0000_0011_1010_0001_0000#32 = .ok (.vmrsA32 0b0001#4 3) ∧
  decode .a32 0b1110_1110_1110_0000_0001_1010_0001_0000#32 = .ok (.vmsrA32 0b1110#4 1) ∧
  decode .t32 0b1110_1110_1111_0000_1100_1010_0001_0000#32 = .ok (.vmrsT32 12) ∧
  decode .t32 0b1110_1110_1110_0000_0001_1010_0001_0000#32 = .ok (.vmsrT32 1) ∧
  decode .a32 0xEEF0FA10#32 = .error .register15 ∧
  decode .t32 0x1EF03A10#32 = .error .outOfScope

/-! ## The step and the run -/

/-- 20_memory.md R53, 10_state.md R39 and 40_fpsid_access.md R91: where the presented word at the program counter decodes,
by the machine's own match and mask words (00_scope.md R3), to i, the step is i at that state; on completion the program
counter moves 4 bytes on and what is pending is presented (the model's convention, notes/assumptions/6.md and 8.md); a
fault or a refusal ends the step as it stands. -/
def Obligations.StepRunsThePresentedInstruction : Prop :=
  ∀ (s : State) (w : Word) (i : Instr), s.mem.lookup s.pc.toNat = some w →
    decodeWith s.cfg.encodings s.iset w = .ok i →
    (∀ t, exec i s = .next t → t.pending = [] → step s = .next { t with pc := t.pc + 4 }) ∧
    (∀ t p ps, exec i s = .next t → t.pending = p :: ps →
      step s = .next { t with pc := t.pc + 4, iset := p.iset, ctx := p.ctx, pending := ps }) ∧
    (∀ f, exec i s = .fault f → step s = .fault f) ∧ (∀ r, exec i s = .refused r → step s = .refused r)

/-- 30_encoding.md R72 (decision D14): with a word the decoder refuses, the step is refused by name; it is neither a no-op
nor an illegal instruction. That it is refused as `noInstruction` where no word is presented is the model's choice
(notes/assumptions/7.md; 20_memory.md R53 leaves the fetch out). -/
def Obligations.StepRefusesWhatIsNotAnInstruction : Prop :=
  ∀ s : State,
    (s.mem.lookup s.pc.toNat = none → step s = .refused .noInstruction) ∧
    (∀ w why, s.mem.lookup s.pc.toNat = some w → decodeWith s.cfg.encodings s.iset w = .error why →
      step s = .refused (.undecodable why))

/-- Loading one word of spec/opcode_table.json makes the next step run exactly the instruction the decoder reads from it,
at the state so loaded, from any state whatever its own match and mask words (the model's loading convention,
notes/assumptions/7.md and 10.md). -/
def Obligations.LoadedTableWordIsTheNextInstruction : Prop :=
  ∀ (s : State) (nbits w : Nat) (i : Instr), decodeTableWord nbits w = some i →
    (∀ t, exec i (s.withFetchWord nbits w) = .next t → step (s.withFetchWord nbits w) = .next t.advance) ∧
    (∀ f, exec i (s.withFetchWord nbits w) = .fault f → step (s.withFetchWord nbits w) = .fault f) ∧
    (∀ r, exec i (s.withFetchWord nbits w) = .refused r → step (s.withFetchWord nbits w) = .refused r)

/-- 40_fpsid_access.md R81 step 2, at the level of the machine (95_test_vectors.md Program 3): at EL0, whatever the control
fields hold, a step never completes an access whose condition has passed: where the presented word decodes to one, by any
match and mask words, and the configuration is admitted, the step ends in Undefined. -/
def Obligations.NoStepCompletesAnAccessAtEl0 : Prop :=
  ∀ (s : State) (w : Word) (i : Instr), ConfigAdmitted s.cfg → s.ctx.el = .el0 → s.ctx.condPassed = true →
    s.mem.lookup s.pc.toNat = some w → decodeWith s.cfg.encodings s.iset w = .ok i → step s = .fault .undefined

/-- The invariant of a run (70_reset_and_hazards.md R130 for the configuration; the canonical form of the store is the
model's): every step from a state that meets it, reachable or not, gives a state that meets it, with the same
configuration. -/
def Obligations.StepKeepsTheInvariant : Prop :=
  ∀ s t : State, RunInvariant s → step s = .next t → RunInvariant t ∧ t.cfg = s.cfg ∧ fpsidValue t.cfg = fpsidValue s.cfg

/-- The launch state meets the invariant, FPSID in it is FPSID_VALUE of its configuration (10_state.md R43) with SW = 0,
and its match and mask words are those of spec/opcode_table.json (00_scope.md R3). That nothing is listed in the store
(notes/assumptions/7.md) and its other values are the model's choices (notes/assumptions/2.md to 9.md). -/
def Obligations.ResetMeetsTheInvariant : Prop :=
  RunInvariant State.reset ∧ State.reset.fpsid = fpsidValue State.reset.cfg ∧ fpsidSw State.reset.fpsid = 0b0#1 ∧
    State.reset.cfg.encodings = opcodeTable ∧ State.reset.mem = []

/-- 10_state.md R22 (the spec's decision D2) along every run, from every state: after any number of completed steps FPSID
is what it was, two reads of it at any time have given the same 32 bits: every register holds what it held at the start, or
FPSID_VALUE, and the configuration is as it was. Three clauses are the model's choice: that x[15] is as it was while the
program counter moves (notes/assumptions/18.md: a plain register, not tied to the program counter; decision D6 says only
that t = 15 is refused), that the program counter has moved 4 bytes a step (notes/assumptions/6.md), and that the store of
presented words is as it was (notes/assumptions/7.md). -/
def Obligations.EveryRunKeepsFpsidAndWritesOnlyFpsid : Prop :=
  ∀ (k : Nat) (s t : State), Host.Core.run Sys2Proof.core k s = .next t →
    t.cfg = s.cfg ∧ t.mem = s.mem ∧ t.pc = s.pc + BitVec.ofNat 32 (4 * k) ∧
    t.readX 15 = s.readX 15 ∧
    ∀ j : Fin 16, t.readX j = s.readX j ∨ t.readX j = fpsidValue s.cfg

/-! ## Replaced encodings -/

/-- 00_scope.md R3 (last row; decision D1): the match and mask words are replaceable. With any table whose rows lie under
their masks, fix no operand bit and are told apart, the word of a well-formed instruction decodes to it, with every operand
at every value. What such a table must satisfy is the model's (`TableAdmitted`, Safety.lean; notes/assumptions/14.md), and
so is that the operand fields stay where the spec has them under a replaced table (notes/assumptions/21.md). -/
def Obligations.ReplacedTableDecodesItsOwnWords : Prop :=
  TableAdmitted opcodeTable ∧
  ∀ (table : EncodingTable) (i : Instr), TableAdmitted table → i.wellFormed = true →
    decodeWith table i.iset (encodeWith table i) = .ok i

/-- 00_scope.md R3 (last row; decision D1), with the decoder of 30_encoding.md R72: whatever the table, a word that decodes
fits the row of the instruction decoded, which is well-formed and of the instruction set decoded; its operands are the
word's fields; and where the row fixes every bit but the operands, the word is the one the encoder gives. R66 places the
operand fields for the spec's own words; that t and cond are bits [15:12] and [31:28] under any replaced table, in the
decoder and in the encoder, is the model's choice (notes/assumptions/21.md), and so is that any table is taken
(notes/assumptions/14.md). -/
def Obligations.ReplacedTableReadsTheFieldsOfTheRow : Prop :=
  ∀ (table : EncodingTable) (iset : ISet) (w : Word) (i : Instr), decodeWith table iset w = .ok i →
    i.wellFormed = true ∧ i.iset = iset ∧ w &&& (table.row i).mask = (table.row i).pattern ∧ i.rt = rtField w ∧
    (∀ cond rt, (i = .vmrsA32 cond rt ∨ i = .vmsrA32 cond rt) → cond = condField w) ∧
    ((table.row i).mask = ~~~operandBits iset → encodeWith table i = w)
end

