-- ==== Sys2Proof/Laws/State.lean ====
section
/-! SUPPORT. One lemma per field per update of the state, and the laws of the registers and of the store of presented
words. -/

namespace Sys2Proof.Machine

section RegisterWrite
variable (s : State) (i j : Fin 16) (v w : Word)

@[simp] theorem State.writeX_cfg : (s.writeX i v).cfg = s.cfg := rfl
@[simp] theorem State.writeX_pc : (s.writeX i v).pc = s.pc := rfl
@[simp] theorem State.writeX_mem : (s.writeX i v).mem = s.mem := rfl
@[simp] theorem State.writeX_iset : (s.writeX i v).iset = s.iset := rfl
@[simp] theorem State.writeX_ctx : (s.writeX i v).ctx = s.ctx := rfl
@[simp] theorem State.writeX_pending : (s.writeX i v).pending = s.pending := rfl
@[simp] theorem State.writeX_draws : (s.writeX i v).draws = s.draws := rfl
@[simp] theorem State.writeX_x : (s.writeX i v).x = s.x.set i.val v := rfl
@[simp] theorem State.writeX_verdict : (s.writeX i v).verdict = s.verdict := rfl
@[simp] theorem State.writeX_fpsid : (s.writeX i v).fpsid = s.fpsid := rfl

/-- Reading back the register just written gives the value written. -/
@[simp] theorem State.readX_writeX_self : (s.writeX i v).readX i = v := by simp [State.readX]

/-- Writing a register leaves every other register alone. -/
theorem State.readX_writeX_other (h : j ≠ i) : (s.writeX i v).readX j = s.readX j := by
  have : i.val ≠ j.val := fun e => h (Fin.ext e.symm)
  simp [State.readX, this]

/-- The second of two writes to one register is the one that counts. -/
@[simp] theorem State.writeX_writeX : (s.writeX i v).writeX i w = s.writeX i w := by
  simp [State.writeX]

end RegisterWrite

section Draw
variable (s : State)

@[simp] theorem State.draw_cfg : s.draw.cfg = s.cfg := rfl
@[simp] theorem State.draw_x : s.draw.x = s.x := rfl
@[simp] theorem State.draw_pc : s.draw.pc = s.pc := rfl
@[simp] theorem State.draw_mem : s.draw.mem = s.mem := rfl
@[simp] theorem State.draw_iset : s.draw.iset = s.iset := rfl
@[simp] theorem State.draw_ctx : s.draw.ctx = s.ctx := rfl
@[simp] theorem State.draw_pending : s.draw.pending = s.pending := rfl
@[simp] theorem State.draw_draws : s.draw.draws = s.draws + 1 := rfl

end Draw

section Advance
variable (s : State)

@[simp] theorem State.presentNext_cfg : s.presentNext.cfg = s.cfg := by unfold State.presentNext; split <;> rfl
@[simp] theorem State.presentNext_x : s.presentNext.x = s.x := by unfold State.presentNext; split <;> rfl
@[simp] theorem State.presentNext_pc : s.presentNext.pc = s.pc := by unfold State.presentNext; split <;> rfl
@[simp] theorem State.presentNext_mem : s.presentNext.mem = s.mem := by unfold State.presentNext; split <;> rfl
@[simp] theorem State.presentNext_draws : s.presentNext.draws = s.draws := by unfold State.presentNext; split <;> rfl

/-- Where nothing is pending, the enclosing model presents the same again. -/
theorem State.presentNext_nil (h : s.pending = []) : s.presentNext = s := by simp [State.presentNext, h]

/-- What is pending first is presented next. -/
theorem State.presentNext_cons (p : Presented) (ps : List Presented) (h : s.pending = p :: ps) :
    s.presentNext = { s with iset := p.iset, ctx := p.ctx, pending := ps } := by simp [State.presentNext, h]

@[simp] theorem State.advance_cfg : s.advance.cfg = s.cfg := State.presentNext_cfg s
@[simp] theorem State.advance_x : s.advance.x = s.x := State.presentNext_x s
@[simp] theorem State.advance_pc : s.advance.pc = s.pc + 4 := rfl
@[simp] theorem State.advance_mem : s.advance.mem = s.mem := State.presentNext_mem s
@[simp] theorem State.advance_draws : s.advance.draws = s.draws := State.presentNext_draws s

end Advance

section Load
variable (s : State) (nbits w : Nat)

@[simp] theorem State.withFetchWord_cfg :
    (s.withFetchWord nbits w).cfg = { s.cfg with encodings := opcodeTable } := rfl
@[simp] theorem State.withFetchWord_x : (s.withFetchWord nbits w).x = s.x := rfl
@[simp] theorem State.withFetchWord_pc : (s.withFetchWord nbits w).pc = s.pc := rfl
@[simp] theorem State.withFetchWord_ctx : (s.withFetchWord nbits w).ctx = s.ctx := rfl
@[simp] theorem State.withFetchWord_pending : (s.withFetchWord nbits w).pending = s.pending := rfl
@[simp] theorem State.withFetchWord_draws : (s.withFetchWord nbits w).draws = s.draws := rfl
@[simp] theorem State.withFetchWord_iset :
    (s.withFetchWord nbits w).iset = tableWordISet (tableWord nbits w) := rfl
@[simp] theorem State.withFetchWord_mem :
    (s.withFetchWord nbits w).mem = s.mem.store s.pc.toNat (tableWord nbits w) := rfl

end Load

/-- A word stored at an address is the word presented there. -/
@[simp] theorem Memory.lookup_store_self (m : Memory) (a : Nat) (w : Word) : (m.store a w).lookup a = some w := by
  induction m with
  | nil => simp [Memory.store, Memory.lookup]
  | cons cell rest ih =>
    obtain ⟨b, v⟩ := cell
    unfold Memory.store
    split
    · simp [Memory.lookup]
    · split
      · simp [Memory.lookup]
      · rename_i hne
        simp [Memory.lookup, hne, ih]

/-- Storing a word leaves every other address alone. -/
theorem Memory.lookup_store_other (m : Memory) (a b : Nat) (w : Word) (h : b ≠ a) :
    (m.store a w).lookup b = m.lookup b := by
  induction m with
  | nil => simp [Memory.store, Memory.lookup, h]
  | cons cell rest ih =>
    obtain ⟨c, v⟩ := cell
    unfold Memory.store
    split
    · simp [Memory.lookup, h]
    · split
      · rename_i hac
        subst hac
        simp [Memory.lookup, h]
      · simp [Memory.lookup, ih]

/-- Storing adds no address but its own. -/
theorem Memory.mem_store (m : Memory) (a : Nat) (w : Word) (cell : Nat × Word) (h : cell ∈ m.store a w) :
    cell = (a, w) ∨ cell ∈ m := by
  induction m with
  | nil => simpa [Memory.store] using h
  | cons head rest ih =>
    obtain ⟨b, v⟩ := head
    unfold Memory.store at h
    split at h
    · simpa using h
    · split at h
      · rcases List.mem_cons.mp h with h | h
        · exact .inl h
        · exact .inr (List.mem_cons_of_mem _ h)
      · rcases List.mem_cons.mp h with h | h
        · exact .inr (h ▸ List.mem_cons_self ..)
        · exact (ih h).imp id (List.mem_cons_of_mem _)

/-- Storing keeps the canonical form. -/
theorem Memory.store_wf (m : Memory) (a : Nat) (w : Word) (h : m.wf = true) : (m.store a w).wf = true := by
  induction m with
  | nil => simp [Memory.store, Memory.wf]
  | cons head rest ih =>
    obtain ⟨b, v⟩ := head
    simp only [Memory.wf, Bool.and_eq_true, List.all_eq_true, decide_eq_true_eq] at h
    obtain ⟨hb, hrest⟩ := h
    unfold Memory.store
    split
    · rename_i hab
      simp only [Memory.wf, Bool.and_eq_true, List.all_eq_true, decide_eq_true_eq, List.mem_cons]
      exact ⟨fun c hc => hc.elim (fun e => e ▸ hab) (fun hc => Nat.lt_trans hab (hb c hc)), hb, hrest⟩
    · split
      · rename_i hab
        subst hab
        simp only [Memory.wf, Bool.and_eq_true, List.all_eq_true, decide_eq_true_eq]
        exact ⟨hb, hrest⟩
      · simp only [Memory.wf, Bool.and_eq_true, List.all_eq_true, decide_eq_true_eq]
        refine ⟨fun c hc => ?_, ih hrest⟩
        rcases Memory.mem_store rest a w c hc with rfl | hc
        · omega
        · exact hb c hc

/-- The store of the launch state is in canonical form. -/
theorem State.reset_mem_wf : State.reset.mem.wf = true := rfl

end Sys2Proof.Machine
end

