-- ==== Sys2Proof/Laws/Access.lean ====
section
/-! SUPPORT. What each shared operation of an access can do, said once: the provers cite these instead of unfolding. -/

namespace Sys2Proof.Machine

/-- The condition holds exactly when the presented result says so. -/
theorem conditionHolds_eq (x : AccessContext) : conditionHolds x = x.condPassed := rfl

/-- A permitted attempt does what the instruction does. -/
theorem attempt_permit {s : State} (permitted : State → State) (h : s.verdict = none) :
    attempt permitted s = .next (permitted s) := by simp [attempt, h]

/-- A refused attempt raises the fault of the check. -/
theorem attempt_fault {s : State} {f : Fault} (permitted : State → State) (h : s.verdict = some f) :
    attempt permitted s = .fault f := by simp [attempt, h, raise]

/-- A failed condition under a permitting check is a no-op. -/
theorem conditionFailed_permit {s : State} (h : s.verdict = none) : conditionFailed s = .next s := by
  simp [conditionFailed, h]

/-- A failed condition under a faulting check: the no-op or the fault, by the free choice. -/
theorem conditionFailed_fault {s : State} {f : Fault} (h : s.verdict = some f) :
    conditionFailed s = if s.failedConditionFaults then .fault f else .next s.draw := by
  simp [conditionFailed, h, raise]

/-- An access whose requirements hold is the attempt or the failed condition. -/
theorem access_admitted {i : Instr} {s : State} (permitted : State → State) (hi : i.wellFormed = true)
    (hc : Safety.ConfigAdmitted s.cfg) :
    access i permitted s = if conditionHolds s.ctx then attempt permitted s else conditionFailed s := by
  simp [access, hi, hc.1, hc.2]

/-- Every next state of an access: the permitted effect, the state as it was, or the state with one choice drawn. -/
theorem access_next {i : Instr} {s t : State} {permitted : State → State} (h : access i permitted s = .next t) :
    (i.wellFormed = true ∧ Safety.ConfigAdmitted s.cfg) ∧
      ((conditionHolds s.ctx = true ∧ s.verdict = none ∧ t = permitted s) ∨
        (conditionHolds s.ctx = false ∧ s.verdict = none ∧ t = s) ∨
        (conditionHolds s.ctx = false ∧ (∃ f, s.verdict = some f) ∧ s.failedConditionFaults = false ∧
          t = s.draw)) := by
  unfold access at h
  split at h
  · cases h
  split at h
  · cases h
  split at h
  · cases h
  rename_i hi ha hw
  refine ⟨⟨by simpa using hi, by simpa using ha, by simpa using hw⟩, ?_⟩
  split at h <;> rename_i hc
  · unfold attempt at h
    split at h <;> rename_i hv
    · injection h with h
      exact .inl ⟨hc, hv, h.symm⟩
    · cases h
  · unfold conditionFailed at h
    split at h <;> rename_i hv
    · injection h with h
      exact .inr (.inl ⟨by simpa using hc, hv, h.symm⟩)
    · split at h <;> rename_i hf
      · cases h
      · injection h with h
        exact .inr (.inr ⟨by simpa using hc, ⟨_, hv⟩, by simpa using hf, h.symm⟩)

/-- Every fault of an access is the check's. -/
theorem access_fault {i : Instr} {s : State} {permitted : State → State} {f : Fault}
    (h : access i permitted s = .fault f) : s.verdict = some f := by
  unfold access at h
  split at h
  · cases h
  split at h
  · cases h
  split at h
  · cases h
  split at h
  · unfold attempt at h
    split at h
    · cases h
    · simp_all [raise]
  · unfold conditionFailed at h
    split at h
    · cases h
    · split at h
      · simp_all [raise]
      · cases h

/-- What a permitted instruction does to the state: a read copies FPSID, a write does nothing. -/
def permittedEffect (i : Instr) (s : State) : State :=
  match i with
  | .vmrsA32 _ rt => s.writeX rt s.fpsid
  | .vmrsT32 rt => s.writeX rt s.fpsid
  | .vmsrA32 _ _ => s
  | .vmsrT32 _ => s

/-- Every instruction is an access with its permitted effect. -/
theorem exec_eq_access (i : Instr) (s : State) : exec i s = access i (permittedEffect i) s := by
  cases i <;> rfl

end Sys2Proof.Machine
end

