-- ==== Sys2Proof/Laws/Check.lean ====
section
/-! SUPPORT. The access check by Exception level, and its conditions over the raw control fields. -/

namespace Sys2Proof.Machine

/-- Without FEAT_AA32EL1 nothing else is looked at. -/
theorem accessCheck_absent {c : Config} {x : AccessContext} (h : c.featAA32EL1 = false) :
    accessCheck c x = some .undefined := by simp [accessCheck, h]

theorem accessCheck_el0 {c : Config} {x : AccessContext} (he : x.el = .el0) : accessCheck c x = some .undefined := by
  simp [accessCheck, he]

theorem accessCheck_el1 {c : Config} {x : AccessContext} (h : c.featAA32EL1 = true) (he : x.el = .el1) :
    accessCheck c x = checkEL1 c x := by simp [accessCheck, h, he]

theorem accessCheck_el2 {c : Config} {x : AccessContext} (h : c.featAA32EL1 = true) (he : x.el = .el2) :
    accessCheck c x = checkEL2 c x := by simp [accessCheck, h, he]

theorem accessCheck_el3 {c : Config} {x : AccessContext} (h : c.featAA32EL1 = true) (he : x.el = .el3) :
    accessCheck c x = checkEL3 x := by simp [accessCheck, h, he]

section Conditions
variable (c : Config) (x : AccessContext)

/-- The condition of steps 1.8 and 2.3 over the raw fields. -/
theorem el3Traps_iff : el3Traps c x = true ↔ Safety.Step18 c x := by
  simp [el3Traps, Safety.Step18, and_assoc]

/-- The condition of steps 1.1 and 2.1 over the raw fields. -/
theorem el3TrapsFirst_iff : (x.el3SddUndefPriority && el3Traps c x) = true ↔ Safety.Step11 c x := by
  simp [el3Traps, Safety.Step11, and_assoc, and_left_comm]

/-- The NSACR disjunct over the raw fields. -/
theorem nsacrDisables_iff : nsacrDisables c x = true ↔ Safety.NsacrDenies c x := by
  simp [nsacrDisables, Safety.NsacrDenies, and_assoc]

/-- The pattern 'x0' matches '00' and '10'. -/
theorem fpenTraps_iff : fpenTraps x = true ↔ x.cptrEl2Fpen = 0b00#2 ∨ x.cptrEl2Fpen = 0b10#2 := by
  unfold fpenTraps
  generalize x.cptrEl2Fpen = fpen
  revert fpen
  decide

/-- The condition of step 1.2 over the raw fields. -/
theorem step12_iff : (nsacrDisables c x || x.cpacrCp10 == 0) = true ↔ Safety.Step12 c x := by
  simp [nsacrDisables_iff, Safety.Step12]

/-- The condition of step 1.3 over the raw fields. -/
theorem step13_iff : (el2EnabledAArch64 c x && !x.el2InHost && x.cptrEl2Tfp == 1) = true ↔ Safety.Step13 c x := by
  simp [el2EnabledAArch64, Safety.Step13, and_assoc]

/-- The condition of step 1.4 over the raw fields. -/
theorem step14_iff :
    (x.el2InHost && c.featAA64EL2 && !x.el2Aarch32 && fpenTraps x) = true ↔ Safety.Step14 c x := by
  simp [fpenTraps_iff, Safety.Step14, and_assoc]

/-- The condition of step 1.5 over the raw fields. -/
theorem step15_iff :
    (el2EnabledAArch32 c x && (nsacrDisables c x || x.hcptrTcp10 == 1)) = true ↔ Safety.Step15 c x := by
  simp [el2EnabledAArch32, nsacrDisables_iff, Safety.Step15, and_assoc]

/-- The condition of step 1.6 over the raw fields. -/
theorem step16_iff : (el2EnabledAArch64 c x && x.hcrEl2Tid0 == 1) = true ↔ Safety.Step16 c x := by
  simp [el2EnabledAArch64, Safety.Step16, and_assoc]

/-- The condition of step 1.7 over the raw fields. -/
theorem step17_iff : (el2EnabledAArch32 c x && x.hcrTid0 == 1) = true ↔ Safety.Step17 c x := by
  simp [el2EnabledAArch32, Safety.Step17, and_assoc]

/-- The condition of step 2.2 over the raw fields. -/
theorem step22_iff : (x.el2Enabled && (nsacrDisables c x || x.hcptrTcp10 == 1)) = true ↔ Safety.Step22 c x := by
  simp [nsacrDisables_iff, Safety.Step22]

end Conditions

section Verdicts
variable (c : Config) (x : AccessContext)

/-- Every verdict of the check at EL1, with the condition that gave it. -/
theorem checkEL1_cases :
    (checkEL1 c x = some .undefined ∧
      (Safety.Step11 c x ∨ Safety.Step12 c x ∨ Safety.Step18 c x ∧ x.el3SddUndef = true)) ∨
    (checkEL1 c x = some (.systemAccessTrap .el2 0x07) ∧ ¬Safety.Step12 c x ∧ (Safety.Step13 c x ∨ Safety.Step14 c x)) ∨
    (checkEL1 c x = some (.hypTrap 0x08) ∧ ¬Safety.Step12 c x ∧ (Safety.Step15 c x ∨ Safety.Step17 c x)) ∨
    (checkEL1 c x = some (.systemAccessTrap .el2 0x08) ∧ Safety.Step16 c x) ∨
    (checkEL1 c x = some (.systemAccessTrap .el3 0x07) ∧ Safety.Step18 c x ∧ x.el3SddUndef = false) ∨
    (checkEL1 c x = none ∧ ¬Safety.Step12 c x ∧ ¬Safety.Step13 c x ∧ ¬Safety.Step14 c x ∧ ¬Safety.Step15 c x ∧
      ¬Safety.Step16 c x ∧ ¬Safety.Step17 c x ∧ ¬Safety.Step18 c x) := by
  unfold checkEL1 el3TrapFault
  have h1 := el3TrapsFirst_iff c x
  have h2 := step12_iff c x
  have h3 := step13_iff c x
  have h4 := step14_iff c x
  have h5 := step15_iff c x
  have h6 := step16_iff c x
  have h7 := step17_iff c x
  have h8 := el3Traps_iff c x
  split
  · exact .inl ⟨rfl, .inl (h1.mp ‹_›)⟩
  split
  · exact .inl ⟨rfl, .inr (.inl (h2.mp ‹_›))⟩
  rename_i n2
  replace n2 := mt h2.mpr n2
  split
  · exact .inr (.inl ⟨rfl, n2, .inl (h3.mp ‹_›)⟩)
  rename_i n3
  split
  · exact .inr (.inl ⟨rfl, n2, .inr (h4.mp ‹_›)⟩)
  rename_i n4
  split
  · exact .inr (.inr (.inl ⟨rfl, n2, .inl (h5.mp ‹_›)⟩))
  rename_i n5
  split
  · exact .inr (.inr (.inr (.inl ⟨rfl, h6.mp ‹_›⟩)))
  rename_i n6
  split
  · exact .inr (.inr (.inl ⟨rfl, n2, .inr (h7.mp ‹_›)⟩))
  rename_i n7
  split
  · rename_i e8
    split
    · exact .inl ⟨rfl, .inr (.inr ⟨h8.mp e8, ‹_›⟩)⟩
    · rename_i n9
      exact .inr (.inr (.inr (.inr (.inl ⟨rfl, h8.mp e8, by simpa using n9⟩))))
  · exact .inr (.inr (.inr (.inr (.inr
      ⟨rfl, n2, mt h3.mpr n3, mt h4.mpr n4, mt h5.mpr n5, mt h6.mpr n6, mt h7.mpr n7, mt h8.mpr ‹_›⟩))))

/-- Every verdict of the check at EL2, with the condition that gave it. -/
theorem checkEL2_cases :
    (checkEL2 c x = some .undefined ∧ (Safety.Step11 c x ∨ Safety.Step18 c x ∧ x.el3SddUndef = true)) ∨
    (checkEL2 c x = some (.hypTrap 0x00) ∧ Safety.Step22 c x) ∨
    (checkEL2 c x = some (.systemAccessTrap .el3 0x07) ∧ Safety.Step18 c x ∧ x.el3SddUndef = false) ∨
    (checkEL2 c x = none ∧ ¬Safety.Step22 c x ∧ ¬Safety.Step18 c x) := by
  unfold checkEL2 el3TrapFault
  have h1 := el3TrapsFirst_iff c x
  have h2 := step22_iff c x
  have h8 := el3Traps_iff c x
  split
  · exact .inl ⟨rfl, .inl (h1.mp ‹_›)⟩
  split
  · exact .inr (.inl ⟨rfl, h2.mp ‹_›⟩)
  rename_i n2
  split
  · rename_i e8
    split
    · exact .inl ⟨rfl, .inr ⟨h8.mp e8, ‹_›⟩⟩
    · rename_i n9
      exact .inr (.inr (.inl ⟨rfl, h8.mp e8, by simpa using n9⟩))
  · exact .inr (.inr (.inr ⟨rfl, mt h2.mpr n2, mt h8.mpr ‹_›⟩))

end Verdicts

end Sys2Proof.Machine
end

