-- ==== Sys2Proof/Laws/Decode.lean ====
section
/-! SUPPORT. The operand fields of a word, bit by bit, what it means to fit a row, and what decoding by any table says. -/

namespace Sys2Proof

/-- A word that fits a row agrees with the row's pattern in every bit the row fixes. -/
theorem EncodingRow.hits_iff (r : EncodingRow) (w : Word) : r.hits w = true ↔ w &&& r.mask = r.pattern := by
  simp [EncodingRow.hits]

/-- The Rt field of a word, put back in place, is bits [15:12] of the word. -/
theorem rtBits_rtField_getLsbD (w : Word) (i : Nat) :
    (rtBits (rtField w)).getLsbD i = (decide (12 ≤ i) && decide (i < 16) && w.getLsbD i) := by
  have h : rtBits (rtField w) = ((w.extractLsb' 12 4).setWidth 32) <<< 12 := by
    unfold rtBits rtField
    congr 1
    apply BitVec.eq_of_toNat_eq
    simp
  rw [h, BitVec.getLsbD_shiftLeft, BitVec.getLsbD_setWidth, BitVec.getLsbD_extractLsb']
  by_cases h1 : i < 12
  · simp [h1, show ¬12 ≤ i by omega]
  by_cases h2 : i < 16
  · simp [h1, h2, show 12 ≤ i by omega, show i < 32 by omega, show i - 12 < 4 by omega, show i - 12 < 32 by omega,
      show 12 + (i - 12) = i by omega]
  · simp [h2, show ¬i - 12 < 4 by omega]

/-- The cond field of a word, put back in place, is bits [31:28] of the word. -/
theorem condBits_condField_getLsbD (w : Word) (i : Nat) :
    (condBits (condField w)).getLsbD i = (decide (28 ≤ i) && decide (i < 32) && w.getLsbD i) := by
  unfold condBits condField
  rw [BitVec.getLsbD_shiftLeft, BitVec.getLsbD_setWidth, BitVec.getLsbD_extractLsb']
  by_cases h1 : i < 28
  · simp [h1, show ¬28 ≤ i by omega]
  by_cases h2 : i < 32
  · simp [h1, h2, show 28 ≤ i by omega, show i - 28 < 4 by omega, show i - 28 < 32 by omega,
      show 28 + (i - 28) = i by omega]
  · simp [h2]

/-- Everything that decoding by any table says of the instruction decoded: it is well-formed, of the instruction set
decoded, the word fits its row, and its operands are the word's fields. -/
theorem decodeWith_ok {table : EncodingTable} {iset : ISet} {w : Word} {i : Instr} (h : decodeWith table iset w = .ok i) :
    i.wellFormed = true ∧ i.iset = iset ∧ (table.row i).hits w = true ∧ i.rt = rtField w ∧
      ∀ cond rt, (i = .vmrsA32 cond rt ∨ i = .vmsrA32 cond rt) → cond = condField w := by
  unfold decodeWith at h
  cases iset <;> simp only at h <;> split at h
  · rename_i hh
    unfold decodeA32Operands at h
    split at h <;> [skip; cases h]
    split at h <;> [skip; cases h]
    injection h with h
    subst h
    exact ⟨by simp [Instr.wellFormed, *], rfl, hh, rfl, by rintro _ _ (e | e) <;> cases e; rfl⟩
  · split at h
    · rename_i hh
      unfold decodeA32Operands at h
      split at h <;> [skip; cases h]
      split at h <;> [skip; cases h]
      injection h with h
      subst h
      exact ⟨by simp [Instr.wellFormed, *], rfl, hh, rfl, by rintro _ _ (e | e) <;> cases e; rfl⟩
    · unfold decodeMiss at h
      split at h <;> cases h
  · rename_i hh
    unfold decodeT32Operands at h
    split at h <;> [skip; cases h]
    injection h with h
    subst h
    exact ⟨by simpa [Instr.wellFormed], rfl, hh, rfl, by rintro _ _ (e | e) <;> cases e⟩
  · split at h
    · rename_i hh
      unfold decodeT32Operands at h
      split at h <;> [skip; cases h]
      injection h with h
      subst h
      exact ⟨by simpa [Instr.wellFormed], rfl, hh, rfl, by rintro _ _ (e | e) <;> cases e⟩
    · unfold decodeMiss at h
      split at h <;> cases h

end Sys2Proof
end

