-- ==== Sys2Proof/Laws/Fpsid.lean ====
section
/-! SUPPORT. The bits of FPSID (10_state.md R21). -/

namespace Sys2Proof.Machine

/-- Each bit of FPSID is a bit of the field that covers it. -/
theorem fpsidValue_getLsbD (c : Config) (i : Nat) :
    (fpsidValue c).getLsbD i =
      if i < 4 then c.revision.getLsbD i
      else if i < 8 then c.variant.getLsbD (i - 4)
      else if i < 16 then c.partNum.getLsbD (i - 8)
      else if i < 23 then c.subarch.getLsbD (i - 16)
      else if i < 24 then c.sw.getLsbD (i - 23)
      else c.implementer.getLsbD (i - 24) := by
  have h : (fpsidValue c).getLsbD i =
      (c.implementer ++ c.sw ++ c.subarch ++ c.partNum ++ c.variant ++ c.revision).getLsbD i := rfl
  rw [h]
  simp only [BitVec.getLsbD_append]
  simp only [Nat.sub_sub, Nat.reduceAdd]
  by_cases h1 : i < 4
  · rw [if_pos h1, if_pos h1]
  rw [if_neg h1, if_neg h1]
  by_cases h2 : i < 8
  · rw [if_pos h2, if_pos (by omega)]
  rw [if_neg h2, if_neg (by omega)]
  by_cases h3 : i < 16
  · rw [if_pos h3, if_pos (by omega)]
  rw [if_neg h3, if_neg (by omega)]
  by_cases h4 : i < 23
  · rw [if_pos h4, if_pos (by omega)]
  rw [if_neg h4, if_neg (by omega)]
  by_cases h5 : i < 24
  · rw [if_pos h5, if_pos (by omega)]
  rw [if_neg h5, if_neg (by omega)]

end Sys2Proof.Machine
end

