-- ==== Sys2Proof/Laws/PerInstr.lean ====
section
/-! SUPPORT. Statements about every instruction as syntax, one lemma per constructor. -/

namespace Sys2Proof.Laws.EncodeFitsRow

/-- The word of a well-formed instruction fits its own row of the opcode table (30_encoding.md R62 to R65). -/
def Statement (i : Instr) : Prop := i.wellFormed = true → (opcodeTable.row i).hits (encode i) = true

theorem vmrsA32 (cond : BitVec 4) (rt : Fin 16) : Statement (.vmrsA32 cond rt) := by
  intro _
  revert cond rt
  decide

theorem vmrsT32 (rt : Fin 16) : Statement (.vmrsT32 rt) := by
  intro _
  revert rt
  decide

theorem vmsrA32 (cond : BitVec 4) (rt : Fin 16) : Statement (.vmsrA32 cond rt) := by
  intro _
  revert cond rt
  decide

theorem vmsrT32 (rt : Fin 16) : Statement (.vmsrT32 rt) := by
  intro _
  revert rt
  decide

end Sys2Proof.Laws.EncodeFitsRow
end

