-- ==== Sys2Proof/Laws/Step.lean ====
section
/-! SUPPORT. What one step can do, said once. -/

namespace Sys2Proof.Machine

/-- A step with a next state ran one decoded instruction and moved on. -/
theorem step_next {s t : State} (h : step s = .next t) :
    ∃ w i u, s.mem.lookup s.pc.toNat = some w ∧ decodeWith s.cfg.encodings s.iset w = .ok i ∧
      exec i s = .next u ∧ t = u.advance := by
  unfold step at h
  split at h
  · cases h
  rename_i w hw
  split at h
  · cases h
  rename_i i hi
  unfold afterExec at h
  split at h
  · rename_i u hu
    injection h with h
    exact ⟨w, i, u, hw, hi, hu, h.symm⟩
  · cases h
  · cases h

/-- A step whose presented word decodes is the instruction, and moving on. -/
theorem step_decoded {s : State} {w : Word} {i : Instr} (hw : s.mem.lookup s.pc.toNat = some w)
    (hi : decodeWith s.cfg.encodings s.iset w = .ok i) : step s = afterExec (exec i s) := by
  simp [step, State.presentedWord, hw, hi]

/-- A run of one step more is a step and the rest of the run. -/
theorem run_succ_next {k : Nat} {s t : State} (h : Host.Core.run core (k + 1) s = .next t) :
    ∃ u : State, step s = .next u ∧ Host.Core.run core k u = .next t := by
  simp only [Host.Core.run] at h
  cases hs : core.step s with
  | fault _ => rw [hs] at h; cases h
  | refused _ => rw [hs] at h; cases h
  | next u =>
    rw [hs] at h
    exact ⟨u, hs, h⟩

end Sys2Proof.Machine
end

