-- ==== Sys2Proof/Tests/Slice0.lean ====
section
/-! SUPPORT. The model's own tests. Expected results come from spec/95_test_vectors.md (the vector's name stands in each
test's comment) or are worked out by hand from the rules; and for every statement of Certificates/Slice0/Obligations.lean
that has hypotheses, a witness that meets them, clause by clause. -/

open Sys2Proof Sys2Proof.Machine Sys2Proof.Safety

namespace Sys2Proof.Tests

/-! ## Helpers -/

/-- The configuration F1, W1 of 95_test_vectors.md with FEAT_AA32EL1 and HAS_ADVSIMD_FP and no other feature. -/
def cfg : Config where
  implementer := 0x41
  sw := 0
  subarch := 0x03
  partNum := 0x40
  variant := 0x3
  revision := 0x4
  hasAdvSimdFp := true
  featAA32EL1 := true
  featAA32EL2 := false
  featAA32EL3 := false
  featAA64EL2 := false
  featAA64EL3 := false
  haveEL3 := false
  armv8a := true
  fpscrTrapEnables := false
  subarchDesignerIsArm := true
  encodings := opcodeTable

/-- Every input zero but the Exception level and CPACR.cp10; the condition passed. -/
def ctx (el : ExceptionLevel) (cpacr : BitVec 2) : AccessContext :=
  { resetContext with el := el, cpacrCp10 := cpacr }

/-- A small state. -/
def st (c : Config) (a : AccessContext) : State where
  cfg := c
  x := Vector.replicate 16 0
  pc := 0
  mem := []
  iset := .a32
  ctx := a
  pending := []
  draws := 0

def nextOf : Host.Outcome State Fault Refusal → Option State
  | .next s => some s
  | .fault _ => none
  | .refused _ => none

def faultOf : Host.Outcome State Fault Refusal → Option Fault
  | .next _ => none
  | .fault f => some f
  | .refused _ => none

def refusalOf : Host.Outcome State Fault Refusal → Option Refusal
  | .next _ => none
  | .fault _ => none
  | .refused r => some r

/-- 95_test_vectors.md V3. -/
def v3 : AccessContext := ctx .el1 3

/-- Configurations with the features of an EL2 or EL3 added. -/
def cfgEl2A64 : Config := { cfg with featAA64EL2 := true }
def cfgEl2A32 : Config := { cfg with featAA32EL2 := true }
def cfgEl3A64 : Config := { cfg with haveEL3 := true, featAA64EL3 := true }
def cfgEl3A32 : Config := { cfg with haveEL3 := true, featAA32EL3 := true }
def cfgAll64 : Config := { cfgEl3A64 with featAA64EL2 := true }

/-! ## Well-formedness: each check refuses an ill-formed term -/

theorem test_wf_refuses_register15 :
    (Instr.vmrsA32 0b1110 15).wellFormed = false ∧ (Instr.vmrsT32 15).wellFormed = false ∧
    (Instr.vmsrA32 0b1110 15).wellFormed = false ∧ (Instr.vmsrT32 15).wellFormed = false := by decide

theorem test_wf_refuses_condition1111 :
    (Instr.vmrsA32 0b1111 0).wellFormed = false ∧ (Instr.vmsrA32 0b1111 0).wellFormed = false := by decide

/-- 10_state.md R34: 13 and 14 are admitted. -/
theorem test_wf_admits_13_and_14 :
    (Instr.vmrsA32 0b1110 14).wellFormed = true ∧ (Instr.vmrsT32 13).wellFormed = true := by decide

/-! ## Decoding, words written out from 30_encoding.md R62 to R65 and 95_test_vectors.md 2.5 -/

/-- E1 to E4 -/
theorem test_decode_vmrs_a32 :
    decode .a32 0b1110_1110_1111_0000_0000_1010_0001_0000#32 = .ok (.vmrsA32 0b1110 0) ∧
    decode .a32 0xEEF0EA10 = .ok (.vmrsA32 0b1110 14) ∧ decode .a32 0x1EF03A10 = .ok (.vmrsA32 0b0001 3) ∧
    decode .a32 0x0EF03A10 = .ok (.vmrsA32 0b0000 3) := by decide

/-- E5, E6 -/
theorem test_decode_vmsr_a32 :
    decode .a32 0b1110_1110_1110_0000_0001_1010_0001_0000#32 = .ok (.vmsrA32 0b1110 1) ∧
    decode .a32 0xEEE07A10 = .ok (.vmsrA32 0b1110 7) := by decide

/-- E7, E8 -/
theorem test_decode_vmrs_t32 :
    decode .t32 0b1110_1110_1111_0000_0000_1010_0001_0000#32 = .ok (.vmrsT32 0) ∧
    decode .t32 0xEEF0CA10 = .ok (.vmrsT32 12) := by decide

/-- E9 -/
theorem test_decode_vmsr_t32 : decode .t32 0b1110_1110_1110_0000_0001_1010_0001_0000#32 = .ok (.vmsrT32 1) := by decide

/-- E10 to E16 -/
theorem test_decode_refuses :
    decode .a32 0xEEF0FA10 = .error .register15 ∧ decode .a32 0xFEF00A10 = .error .condition1111 ∧
    decode .a32 0xEEF10A10 = .error .outOfScope ∧ decode .a32 0xEEF70A10 = .error .outOfScope ∧
    decode .a32 0xEEF80A10 = .error .outOfScope ∧ decode .a32 0xEEE80A10 = .error .outOfScope ∧
    decode .a32 0xEEF00A30 = .error .shouldBeZero ∧ decode .a32 0xEEF00B10 = .error .outOfScope ∧
    decode .t32 0x1EF03A10 = .error .outOfScope := by decide

/-- The fixed bits of the four rows of opcode_table.json with every free field zero. -/
theorem test_decode_table_words :
    decodeTableWord 32 0x0EF00A10 = some (.vmrsA32 0 0) ∧ decodeTableWord 32 0xEEF00A10 = some (.vmrsT32 0) ∧
    decodeTableWord 32 0x0EE00A10 = some (.vmsrA32 0 0) ∧ decodeTableWord 32 0xEEE00A10 = some (.vmsrT32 0) := by
  decide

/-- 30_encoding.md R69 -/
theorem test_assembly :
    assembly (.vmrsA32 0b1110 0) = some "VMRS R0, FPSID" ∧ assembly (.vmsrT32 1) = some "VMSR FPSID, R1" ∧
    assembly (.vmrsA32 0b0001 3) = some "VMRSNE R3, FPSID" := by decide

/-! ## The register -/

/-- F1, F4, F5, F7 of 95_test_vectors.md 2.1 -/
theorem test_fpsid_packing :
    fpsidValue cfg = 0x41034034#32 ∧
    fpsidValue { cfg with implementer := 0x51, subarch := 0x40, partNum := 0x4D, variant := 1, revision := 0 }
      = 0x51404D10#32 ∧
    fpsidValue { cfg with sw := 1, subarch := 0, partNum := 0, variant := 0, revision := 0 } = 0x41800000#32 ∧
    fpsidValue { cfg with implementer := 0xFF, sw := 1, subarch := 0x7F, partNum := 0xFF, variant := 0xF, revision := 0xF }
      = 0xFFFFFFFF#32 := by decide

/-- S1 of 95_test_vectors.md: an implementation by Arm has FPSID[31:24] = 0x41; F4 has another implementer. -/
theorem test_arm_implementer : isArmImplementation 0x41034034 = true ∧ isArmImplementation 0x51404D10 = false := by
  decide

/-- W1 to W6 of 95_test_vectors.md 2.2 -/
theorem test_wellformed_configurations_armv8 :
    fpsidWf cfg = true ∧ fpsidWf { cfg with fpscrTrapEnables := true } = false ∧
    fpsidWf { cfg with subarch := 4, fpscrTrapEnables := true } = true ∧ fpsidWf { cfg with subarch := 4 } = false ∧
    fpsidWf { cfg with subarch := 1 } = false ∧ fpsidWf { cfg with subarch := 1, armv8a := false } = true := by decide

/-- W7 to W15 of 95_test_vectors.md 2.2 -/
theorem test_wellformed_configurations_general :
    fpsidWf { cfg with subarch := 0x40, armv8a := false, subarchDesignerIsArm := false } = true ∧
    fpsidWf { cfg with subarch := 0x40, armv8a := false } = false ∧
    fpsidWf { cfg with subarch := 0x40, subarchDesignerIsArm := false } = false ∧
    fpsidWf { cfg with sw := 1, subarch := 0, armv8a := false } = true ∧
    fpsidWf { cfg with sw := 1, subarch := 0 } = false ∧
    fpsidWf { cfg with subarch := 5, armv8a := false } = false ∧ fpsidWf { cfg with sw := 1 } = false ∧
    fpsidWf { cfg with sw := 1, subarch := 0x7F, armv8a := false, subarchDesignerIsArm := false } = true ∧
    fpsidWf { cfg with subarch := 0, armv8a := false } = true := by decide

/-! ## The access check, 95_test_vectors.md 2.3 -/

/-- V1, V40, V2 -/
theorem test_check_feature_and_el0 :
    accessCheck { cfg with featAA32EL1 := false } (ctx .el3 3) = some .undefined ∧
    accessCheck { cfg with featAA32EL1 := false } v3 = some .undefined ∧
    accessCheck cfg (ctx .el0 3) = some .undefined := by decide

/-- V3 to V8 -/
theorem test_check_el1_enables :
    accessCheck cfg v3 = none ∧ accessCheck cfg (ctx .el1 1) = none ∧ accessCheck cfg (ctx .el1 0) = some .undefined ∧
    accessCheck cfgEl3A32 { v3 with el3Aarch32 := true, scrNs := 1 } = some .undefined ∧
    accessCheck cfgEl3A32 { v3 with el3Aarch32 := true, scrNs := 1, nsacrCp10 := 1 } = none ∧
    accessCheck cfgEl3A32 { v3 with el3Aarch32 := true } = none := by decide

/-- V9 to V14 -/
theorem test_check_el1_cptr_el2 :
    accessCheck cfgEl2A64 { v3 with el2Enabled := true, cptrEl2Tfp := 1, cptrEl2Fpen := 3 }
      = some (.systemAccessTrap .el2 0x07) ∧
    accessCheck cfgEl2A64 { v3 with el2Enabled := true, cptrEl2Tfp := 1, cptrEl2Fpen := 3, el2InHost := true } = none ∧
    accessCheck cfgEl2A64 { v3 with el2Enabled := true, el2InHost := true, cptrEl2Fpen := 2 }
      = some (.systemAccessTrap .el2 0x07) ∧
    accessCheck cfgEl2A64 { v3 with el2Enabled := true, el2InHost := true } = some (.systemAccessTrap .el2 0x07) ∧
    accessCheck cfgEl2A64 { v3 with el2Enabled := true, el2InHost := true, cptrEl2Fpen := 1 } = none ∧
    accessCheck cfgEl2A64 { v3 with el2InHost := true } = some (.systemAccessTrap .el2 0x07) := by decide

/-- V15 to V20 -/
theorem test_check_el1_hyp_and_id_traps :
    accessCheck cfgEl2A32 { v3 with el2Enabled := true, el2Aarch32 := true, hcptrTcp10 := 1 } = some (.hypTrap 0x08) ∧
    accessCheck cfgEl2A32 { v3 with el2Enabled := true, el2Aarch32 := true, hcptrTcp10 := 1, hcrTid0 := 1 }
      = some (.hypTrap 0x08) ∧
    accessCheck cfgEl2A64 { v3 with el2Enabled := true, hcrEl2Tid0 := 1 } = some (.systemAccessTrap .el2 0x08) ∧
    accessCheck cfgEl2A32 { v3 with el2Enabled := true, el2Aarch32 := true, hcrTid0 := 1 } = some (.hypTrap 0x08) ∧
    accessCheck cfgEl2A32 { v3 with el2Aarch32 := true, hcrTid0 := 1, hcptrTcp10 := 1 } = none ∧
    accessCheck cfgEl2A64 { v3 with el2Enabled := true, hcrTid0 := 1 } = none := by decide

/-- V21 to V27 -/
theorem test_check_el1_el3_trap_and_priority :
    accessCheck cfgEl3A64 { v3 with cptrEl3Tfp := 1 } = some (.systemAccessTrap .el3 0x07) ∧
    accessCheck cfgEl3A64 { v3 with cptrEl3Tfp := 1, el3SddUndef := true } = some .undefined ∧
    accessCheck cfgAll64 { v3 with cptrEl3Tfp := 1, el3SddUndefPriority := true, el2Enabled := true, cptrEl2Tfp := 1 }
      = some .undefined ∧
    accessCheck cfgAll64 { v3 with cptrEl3Tfp := 1, el3SddUndef := true, el2Enabled := true, cptrEl2Tfp := 1 }
      = some (.systemAccessTrap .el2 0x07) ∧
    accessCheck { cfgEl3A64 with haveEL3 := false } { v3 with cptrEl3Tfp := 1 } = none ∧
    accessCheck cfgEl3A64 { v3 with cptrEl3Tfp := 1, el3Aarch32 := true } = none ∧
    accessCheck cfgEl2A64 { ctx .el1 0 with el2Enabled := true, hcrEl2Tid0 := 1 } = some .undefined := by decide

/-- V28 to V36 -/
theorem test_check_el2 :
    accessCheck cfg (ctx .el2 0) = none ∧
    accessCheck cfg { ctx .el2 0 with el2Enabled := true, hcptrTcp10 := 1 } = some (.hypTrap 0x00) ∧
    accessCheck cfg { ctx .el2 0 with hcptrTcp10 := 1 } = none ∧
    accessCheck cfgEl3A32 { ctx .el2 0 with el2Enabled := true, el3Aarch32 := true, scrNs := 1 }
      = some (.hypTrap 0x00) ∧
    accessCheck cfg { ctx .el2 0 with el2Enabled := true, hcrTid0 := 1, hcrEl2Tid0 := 1, cptrEl2Tfp := 1 } = none ∧
    accessCheck cfgEl3A64 { ctx .el2 0 with el2Enabled := true, cptrEl3Tfp := 1 }
      = some (.systemAccessTrap .el3 0x07) ∧
    accessCheck cfgEl3A64 { ctx .el2 0 with el2Enabled := true, cptrEl3Tfp := 1, el3SddUndef := true }
      = some .undefined ∧
    accessCheck cfgEl3A64
      { ctx .el2 0 with el2Enabled := true, cptrEl3Tfp := 1, el3SddUndefPriority := true, hcptrTcp10 := 1 }
      = some .undefined ∧
    accessCheck cfgEl3A64 { ctx .el2 0 with el2Enabled := true, cptrEl3Tfp := 1, hcptrTcp10 := 1 }
      = some (.hypTrap 0x00) := by decide

/-- V37 to V39 -/
theorem test_check_el3 :
    accessCheck cfg (ctx .el3 0) = some .undefined ∧
    accessCheck cfgEl3A64
      { ctx .el3 1 with cptrEl3Tfp := 1, el3SddUndefPriority := true, el2Enabled := true, hcptrTcp10 := 1 } = none ∧
    accessCheck cfg (ctx .el3 2) = none := by decide

/-! ## The instructions, 95_test_vectors.md 2.4 -/

/-- A context for V17. -/
def v17 : AccessContext := { v3 with el2Enabled := true, hcrEl2Tid0 := 1 }

/-- I1, I2 -/
theorem test_vmrs_a32 :
    (nextOf (exec (.vmrsA32 0b1110 0) ((st cfg v3).writeX 0 0xDEADBEEF))).map (fun s => (s.readX 0, s.readX 1))
      = some (0x41034034#32, 0#32) ∧
    (nextOf (exec (.vmrsA32 0b1110 14) (st cfg v3))).map (fun s => s.readX 14) = some 0x41034034#32 := by decide

/-- I3, I5 -/
theorem test_vmrs_t32 :
    (nextOf (exec (.vmrsT32 13) (st cfg (ctx .el3 2)))).map (fun s => s.readX 13) = some 0x41034034#32 ∧
    faultOf (exec (.vmrsT32 0) (st cfgEl2A64 v17)) = some (.systemAccessTrap .el2 0x08) := by decide

/-- I6, I9 -/
theorem test_vmsr_a32 :
    nextOf (exec (.vmsrA32 0b1110 1) ((st cfg v3).writeX 1 0xFFFFFFFF)) = some ((st cfg v3).writeX 1 0xFFFFFFFF) ∧
    faultOf (exec (.vmsrA32 0b1110 1) (st cfg (ctx .el0 3))) = some .undefined := by decide

/-- I7, I10 -/
theorem test_vmsr_t32 :
    nextOf (exec (.vmsrT32 1) (st cfg v3)) = some (st cfg v3) ∧
    faultOf (exec (.vmsrT32 1) (st cfg { ctx .el2 0 with el2Enabled := true, hcptrTcp10 := 1 }))
      = some (.hypTrap 0x00) := by decide

/-- I11: a failed condition under a permitting check writes nothing. -/
theorem test_failed_condition :
    nextOf (exec (.vmrsA32 0b0001 3) ((st cfg { v3 with condPassed := false }).writeX 3 5))
      = some ((st cfg { v3 with condPassed := false }).writeX 3 5) := by decide

/-- 40_fpsid_access.md R85, R87: the presented result decides whatever the condition field says, 0b1110 included. -/
theorem test_failed_condition_in_every_field :
    nextOf (exec (.vmrsA32 0b1110 3) ((st cfg { v3 with condPassed := false }).writeX 3 5))
      = some ((st cfg { v3 with condPassed := false }).writeX 3 5) := by decide

/-- I14, I15 -/
theorem test_refused_configurations :
    refusalOf (exec (.vmrsT32 0) (st { cfg with hasAdvSimdFp := false } v3)) = some .advSimdFpAbsent ∧
    refusalOf (exec (.vmrsT32 0) (st { cfg with fpscrTrapEnables := true } v3)) = some .illFormedConfiguration := by
  decide

/-! ## The step -/

/-- Program 5, its first step: VMRSNE R3 with a failed condition, and the context of the second step presented next. -/
def program5 : State :=
  { st cfg { v3 with condPassed := false } with
    mem := [(0, 0x1EF03A10), (4, 0x0EF06A10)]
    pending := [⟨.a32, v3⟩] }

theorem test_step_program5 :
    (nextOf (step program5)).map (fun s => (s.pc, s.readX 3, s.ctx.condPassed, s.pending.length))
      = some (4#32, 0#32, true, 0) := by decide

/-- The read's and the write's words exchanged in A32. -/
def exchanged : EncodingTable := { opcodeTable with vmrsA32 := opcodeTable.vmsrA32, vmsrA32 := opcodeTable.vmrsA32 }

/-- 00_scope.md R3: the machine decodes by its own match and mask words. The word of row 1 reads FPSID by the spec's table,
and writes it, changing nothing, by a table in which rows 1 and 3 are exchanged. -/
theorem test_step_decodes_by_the_machines_table :
    (nextOf (step { st cfg v3 with mem := [(0, 0xEEF00A10)] })).map (fun s => s.readX 0) = some 0x41034034#32 ∧
    (nextOf (step { st { cfg with encodings := exchanged } v3 with mem := [(0, 0xEEF00A10)] })).map (fun s => s.readX 0)
      = some 0#32 := by decide

/-- With nothing presented, and with a word that is no instruction, the step is refused by name. -/
theorem test_step_refusals :
    refusalOf (step (st cfg v3)) = some .noInstruction ∧
    refusalOf (step { st cfg v3 with mem := [(0, 0xEEF10A10)] }) = some (.undecodable .outOfScope) := by decide

/-- Each row of opcode_table.json, loaded, is the first instruction a run from the launch state completes. -/
theorem test_first_instruction_after_reset :
    (nextOf (step (State.reset.withFetchWord 32 0x0EF00A10))).map (fun s => s.pc) = some 4#32 ∧
    (nextOf (step (State.reset.withFetchWord 32 0xEEF00A10))).map (fun s => s.pc) = some 4#32 ∧
    (nextOf (step (State.reset.withFetchWord 32 0x0EE00A10))).map (fun s => s.pc) = some 4#32 ∧
    (nextOf (step (State.reset.withFetchWord 32 0xEEE00A10))).map (fun s => s.pc) = some 4#32 := by decide

/-- Storing keeps the addresses rising, before, at and after a listed one. -/
theorem test_store_is_canonical :
    Memory.store [(4, 1#32), (8, 2#32)] 0 3#32 = [(0, 3#32), (4, 1#32), (8, 2#32)] ∧
    Memory.store [(4, 1#32), (8, 2#32)] 4 3#32 = [(4, 3#32), (8, 2#32)] ∧
    Memory.store [(4, 1#32), (8, 2#32)] 9 3#32 = [(4, 1#32), (8, 2#32), (9, 3#32)] := by decide

/-! ## Witnesses for the statements' hypotheses, in the order of Obligations.lean -/

theorem witness_FpsidLayoutIsSixFields : ∃ t, exec (.vmrsT32 0) (st cfg v3) = .next t := ⟨_, rfl⟩

theorem witness_Armv8PermitsOneSwAndTwoSubarchitectures :
    (cfg.armv8a = true ∧ fpsidWf cfg = true) ∧
    (fpsidWf { cfg with subarch := 4, fpscrTrapEnables := true } = true) := by decide

theorem witness_ReservedSubarchitecturesAreIllFormed :
    (0x05 ≤ (0x05#7).toNat ∧ (0x05#7).toNat ≤ 0x3F) ∧ (0x05 ≤ (0x3F#7).toNat ∧ (0x3F#7).toNat ≤ 0x3F) ∧
    subarchMeaning 0x04 = .vfpv3CommonV3 ∧ subarchMeaning 0x40 = .implementersOwn ∧ fpsidWf cfg = true ∧
    fpsidWf { cfg with subarch := 0x40, armv8a := false, subarchDesignerIsArm := false } = true := by decide

theorem witness_WellFormedConfigurationsHaveTwoShapesInArmv8 : cfg.armv8a = true ∧ fpsidWf cfg = true := by decide

theorem witness_CheckDispatchesOnFeatureAndLevel :
    ({ cfg with featAA32EL1 := false } : Config).featAA32EL1 = false ∧ cfg.featAA32EL1 = true ∧
    (ctx .el0 0).el = .el0 ∧ (ctx .el1 0).el = .el1 ∧ (ctx .el2 0).el = .el2 ∧ (ctx .el3 0).el = .el3 := by decide

/-- Contexts that reach step 1.4 (both patterns of FPEN), 1.5, 1.7, 1.8 both ways. -/
def c14 : AccessContext := { v3 with el2InHost := true, cptrEl2Fpen := 0b00 }
def c14' : AccessContext := { v3 with el2InHost := true, cptrEl2Fpen := 0b10 }
def c15 : AccessContext := { v3 with el2Enabled := true, el2Aarch32 := true, hcptrTcp10 := 1 }
def c17 : AccessContext := { v3 with el2Enabled := true, el2Aarch32 := true, hcrTid0 := 1 }
def c18 : AccessContext := { v3 with cptrEl3Tfp := 1 }
def c18' : AccessContext := { v3 with cptrEl3Tfp := 1, el3SddUndef := true }

/-- Contexts that reach step 1.1, 1.2 by its NSACR disjunct, 1.3. -/
def c11 : AccessContext := { v3 with el3SddUndefPriority := true, cptrEl3Tfp := 1 }
def c12 : AccessContext := { v3 with el3Aarch32 := true, scrNs := 1 }
def c13 : AccessContext := { v3 with el2Enabled := true, cptrEl2Tfp := 1 }

theorem witness_CheckAtEl1FollowsItsNineSteps_1 :
    cfgEl3A64.featAA32EL1 = true ∧ c11.el = .el1 ∧ Step11 cfgEl3A64 c11 := by decide

theorem witness_CheckAtEl1FollowsItsNineSteps_2_cpacr :
    cfg.featAA32EL1 = true ∧ (ctx .el1 0).el = .el1 ∧ ¬Step11 cfg (ctx .el1 0) ∧ Step12 cfg (ctx .el1 0) := by decide

theorem witness_CheckAtEl1FollowsItsNineSteps_2_nsacr :
    cfgEl3A32.featAA32EL1 = true ∧ c12.el = .el1 ∧ ¬Step11 cfgEl3A32 c12 ∧ Step12 cfgEl3A32 c12 := by decide

theorem witness_CheckAtEl1FollowsItsNineSteps_3 :
    cfgEl2A64.featAA32EL1 = true ∧ c13.el = .el1 ∧ ¬Step11 cfgEl2A64 c13 ∧ ¬Step12 cfgEl2A64 c13 ∧
    Step13 cfgEl2A64 c13 := by decide

theorem witness_CheckAtEl1FollowsItsNineSteps_4_fpen00 :
    cfgEl2A64.featAA32EL1 = true ∧ c14.el = .el1 ∧ ¬Step11 cfgEl2A64 c14 ∧ ¬Step12 cfgEl2A64 c14 ∧
    ¬Step13 cfgEl2A64 c14 ∧ Step14 cfgEl2A64 c14 := by decide

theorem witness_CheckAtEl1FollowsItsNineSteps_4_fpen10 :
    cfgEl2A64.featAA32EL1 = true ∧ c14'.el = .el1 ∧ ¬Step11 cfgEl2A64 c14' ∧ ¬Step12 cfgEl2A64 c14' ∧
    ¬Step13 cfgEl2A64 c14' ∧ Step14 cfgEl2A64 c14' := by decide

theorem witness_CheckAtEl1FollowsItsNineSteps_5 :
    cfgEl2A32.featAA32EL1 = true ∧ c15.el = .el1 ∧ ¬Step11 cfgEl2A32 c15 ∧ ¬Step12 cfgEl2A32 c15 ∧
    ¬Step13 cfgEl2A32 c15 ∧ ¬Step14 cfgEl2A32 c15 ∧ Step15 cfgEl2A32 c15 := by decide

theorem witness_CheckAtEl1FollowsItsNineSteps_6 :
    cfgEl2A64.featAA32EL1 = true ∧ v17.el = .el1 ∧ ¬Step11 cfgEl2A64 v17 ∧ ¬Step12 cfgEl2A64 v17 ∧
    ¬Step13 cfgEl2A64 v17 ∧ ¬Step14 cfgEl2A64 v17 ∧ ¬Step15 cfgEl2A64 v17 ∧ Step16 cfgEl2A64 v17 := by decide

theorem witness_CheckAtEl1FollowsItsNineSteps_7 :
    cfgEl2A32.featAA32EL1 = true ∧ c17.el = .el1 ∧ ¬Step11 cfgEl2A32 c17 ∧ ¬Step12 cfgEl2A32 c17 ∧
    ¬Step13 cfgEl2A32 c17 ∧ ¬Step14 cfgEl2A32 c17 ∧ ¬Step15 cfgEl2A32 c17 ∧ ¬Step16 cfgEl2A32 c17 ∧
    Step17 cfgEl2A32 c17 := by decide

theorem witness_CheckAtEl1FollowsItsNineSteps_8_trap :
    cfgEl3A64.featAA32EL1 = true ∧ c18.el = .el1 ∧ ¬Step11 cfgEl3A64 c18 ∧ ¬Step12 cfgEl3A64 c18 ∧
    ¬Step13 cfgEl3A64 c18 ∧ ¬Step14 cfgEl3A64 c18 ∧ ¬Step15 cfgEl3A64 c18 ∧ ¬Step16 cfgEl3A64 c18 ∧
    ¬Step17 cfgEl3A64 c18 ∧ Step18 cfgEl3A64 c18 ∧ c18.el3SddUndef = false := by decide

theorem witness_CheckAtEl1FollowsItsNineSteps_8_undefined :
    cfgEl3A64.featAA32EL1 = true ∧ c18'.el = .el1 ∧ ¬Step11 cfgEl3A64 c18' ∧ ¬Step12 cfgEl3A64 c18' ∧
    ¬Step13 cfgEl3A64 c18' ∧ ¬Step14 cfgEl3A64 c18' ∧ ¬Step15 cfgEl3A64 c18' ∧ ¬Step16 cfgEl3A64 c18' ∧
    ¬Step17 cfgEl3A64 c18' ∧ Step18 cfgEl3A64 c18' ∧ c18'.el3SddUndef = true := by decide

theorem witness_CheckAtEl1FollowsItsNineSteps_9 :
    cfg.featAA32EL1 = true ∧ v3.el = .el1 ∧ ¬Step11 cfg v3 ∧ ¬Step12 cfg v3 ∧ ¬Step13 cfg v3 ∧ ¬Step14 cfg v3 ∧
    ¬Step15 cfg v3 ∧ ¬Step16 cfg v3 ∧ ¬Step17 cfg v3 ∧ ¬Step18 cfg v3 := by decide

/-- Contexts that reach step 2.1, 2.2 (EL2 not known to be 32-bit), 2.3 both ways. -/
def c21 : AccessContext := { ctx .el2 0 with el3SddUndefPriority := true, cptrEl3Tfp := 1 }
def c22 : AccessContext := { ctx .el2 0 with el2Enabled := true, hcptrTcp10 := 1 }
def c23 : AccessContext := { ctx .el2 0 with cptrEl3Tfp := 1 }
def c23' : AccessContext := { ctx .el2 0 with cptrEl3Tfp := 1, el3SddUndef := true }

theorem witness_CheckAtEl2FollowsItsFourSteps_1_and_2 :
    cfgEl3A64.featAA32EL1 = true ∧ c21.el = .el2 ∧ Step11 cfgEl3A64 c21 ∧ c22.el = .el2 ∧ ¬Step11 cfg c22 ∧
    Step22 cfg c22 := by decide

theorem witness_CheckAtEl2FollowsItsFourSteps_3 :
    c23.el = .el2 ∧ ¬Step11 cfgEl3A64 c23 ∧ ¬Step22 cfgEl3A64 c23 ∧ Step18 cfgEl3A64 c23 ∧ c23.el3SddUndef = false ∧
    ¬Step11 cfgEl3A64 c23' ∧ ¬Step22 cfgEl3A64 c23' ∧ Step18 cfgEl3A64 c23' ∧ c23'.el3SddUndef = true := by decide

theorem witness_CheckAtEl2FollowsItsFourSteps_4 :
    cfg.featAA32EL1 = true ∧ (ctx .el2 0).el = .el2 ∧ ¬Step11 cfg (ctx .el2 0) ∧ ¬Step22 cfg (ctx .el2 0) ∧
    ¬Step18 cfg (ctx .el2 0) := by decide

theorem witness_CheckAtEl3ConsultsCpacrAlone :
    cfg.featAA32EL1 = true ∧ cfgAll64.featAA32EL1 = true ∧ (ctx .el3 0).el = .el3 ∧ (ctx .el3 0).cpacrCp10 = 0b00#2 ∧
    (ctx .el3 1).cpacrCp10 ≠ 0b00#2 ∧ (ctx .el3 1).cpacrCp10 = ({ ctx .el3 1 with cptrEl3Tfp := 1 } : AccessContext).cpacrCp10 := by
  decide

theorem witness_CheckAtEl2IgnoresEl1Controls : (ctx .el2 0).el = .el2 := by decide

/-- A fault from each level, with each code. -/
theorem witness_FaultCodesByExceptionLevel :
    accessCheck cfg (ctx .el0 3) = some .undefined ∧ accessCheck cfg (ctx .el3 0) = some .undefined ∧
    accessCheck cfgEl2A64 v17 = some (.systemAccessTrap .el2 0x08) ∧
    accessCheck cfgEl2A32 { v3 with el2Enabled := true, el2Aarch32 := true, hcrTid0 := 1 } = some (.hypTrap 0x08) ∧
    accessCheck cfg { ctx .el2 0 with el2Enabled := true, hcptrTcp10 := 1 } = some (.hypTrap 0x00) ∧
    accessCheck cfgEl3A64 { ctx .el2 0 with cptrEl3Tfp := 1 } = some (.systemAccessTrap .el3 0x07) := by decide

/-- Each trap, from each of its controls. -/
theorem witness_EveryTrapHasItsControlSet :
    accessCheck cfgEl2A64 { v3 with el2Enabled := true, cptrEl2Tfp := 1 } = some (.systemAccessTrap .el2 0x07) ∧
    accessCheck cfgEl2A64 { v3 with el2InHost := true } = some (.systemAccessTrap .el2 0x07) ∧
    accessCheck cfgEl2A64 v17 = some (.systemAccessTrap .el2 0x08) ∧
    accessCheck cfgEl2A32 { v3 with el2Enabled := true, el2Aarch32 := true, hcptrTcp10 := 1 } = some (.hypTrap 0x08) ∧
    accessCheck cfg { ctx .el2 0 with el2Enabled := true, hcptrTcp10 := 1 } = some (.hypTrap 0x00) ∧
    accessCheck cfgEl3A64 { v3 with cptrEl3Tfp := 1 } = some (.systemAccessTrap .el3 0x07) := by decide

theorem witness_PermitConditionsAtEl1AndEl2 :
    (v3.el = .el1 ∧ cfg.featAA32EL1 = true ∧ v3.cpacrCp10 ≠ 0b00#2 ∧ v3.el2Enabled = false ∧ v3.el2InHost = false ∧
      ¬NsacrDenies cfg v3 ∧ ¬Step18 cfg v3) ∧ (ctx .el2 0).el = .el2 := by decide

/-- Both ends of t and of cond. -/
theorem witness_VmrsPermittedCopiesFpsidToRt :
    (cfg.hasAdvSimdFp = true ∧ fpsidWf cfg = true ∧ accessCheck cfg v3 = none ∧ v3.condPassed = true) ∧
    (0 : Fin 16) ≠ 15 ∧ (14 : Fin 16) ≠ 15 ∧ 0b0000#4 ≠ 0b1111#4 ∧ 0b1110#4 ≠ 0b1111#4 := by decide

theorem witness_VmsrPermittedWritesNothing :
    cfg.hasAdvSimdFp = true ∧ fpsidWf cfg = true ∧ accessCheck cfg (ctx .el3 2) = none ∧ (14 : Fin 16) ≠ 15 ∧
    0b1110#4 ≠ 0b1111#4 ∧ (ctx .el3 2).condPassed = true := by decide

/-- EL1 with EL2 off, EL1 under a 64-bit EL2 with no trap set, EL2 and EL3: the conditions can be met at each level. -/
theorem witness_BootConditionsSufficeForAccess :
    (v3.condPassed = true ∧ 0b0000#4 ≠ 0b1111#4 ∧ fpsidWf cfg = true ∧ cfg.featAA32EL1 = true ∧ cfg.hasAdvSimdFp = true ∧ v3.el ≠ .el0 ∧
      v3.cpacrCp10 ≠ 0b00#2 ∧ cfg.featAA32EL3 = false ∧ v3.el2Enabled = false ∧ v3.el2InHost = false ∧
      cfg.haveEL3 = false) ∧
    (fpsidWf cfgEl2A64 = true ∧ ({ v3 with el2Enabled := true } : AccessContext).el2Aarch32 = false ∧
      ¬(({ v3 with el2Enabled := true } : AccessContext).cptrEl2Tfp = 1) ∧
      ¬(({ v3 with el2Enabled := true } : AccessContext).hcrEl2Tid0 = 1)) ∧
    ((ctx .el2 0).el ≠ .el0 ∧ (ctx .el2 0).hcptrTcp10 = 0) ∧ ((ctx .el3 1).el ≠ .el0 ∧ (ctx .el3 1).cpacrCp10 ≠ 0b00#2) := by
  decide

theorem witness_AccessRaisesTheFaultOfTheCheck :
    cfgEl2A64.hasAdvSimdFp = true ∧ fpsidWf cfgEl2A64 = true ∧
    accessCheck cfgEl2A64 v17 = some (.systemAccessTrap .el2 0x08) ∧ (14 : Fin 16) ≠ 15 ∧ 0b1110#4 ≠ 0b1111#4 ∧
    v17.condPassed = true := by decide

theorem witness_AccessHasOneOfSevenOutcomes :
    (Instr.vmsrA32 0b1110 14).wellFormed = true ∧ cfg.hasAdvSimdFp = true ∧ fpsidWf cfg = true ∧
    v3.condPassed = true := by decide

/-- A failed condition under a permitting and under a faulting check, in a form with a condition and in one whose field
says always. -/
theorem witness_FailedConditionIsNoOpOrTheFault :
    (Instr.vmrsA32 0b0001 3).wellFormed = true ∧ (Instr.vmsrA32 0b1110 14).wellFormed = true ∧
    cfg.hasAdvSimdFp = true ∧ fpsidWf cfg = true ∧ accessCheck cfg { v3 with condPassed := false } = none ∧
    accessCheck cfg { ctx .el1 0 with condPassed := false } = some .undefined := by decide

theorem witness_AccessIsRefusedWithoutAdmittedConfiguration :
    (Instr.vmrsT32 0).wellFormed = true ∧ ({ cfg with hasAdvSimdFp := false } : Config).hasAdvSimdFp = false ∧
    ({ cfg with subarch := 5 } : Config).hasAdvSimdFp = true ∧ fpsidWf { cfg with subarch := 5 } = false := by decide

theorem witness_AccessFrame :
    (∃ t, exec (.vmrsA32 0b0000 14) (st cfg v3) = .next t) ∧ (∃ t, exec (.vmsrT32 0) (st cfg v3) = .next t) ∧
    v3.condPassed = true ∧ (13 : Fin 16) ≠ (Instr.vmrsA32 0b0000 14).rt := ⟨⟨_, rfl⟩, ⟨_, rfl⟩, rfl, by decide⟩

theorem witness_ReadAndWriteHaveTheSameOutcome : (0 : Fin 16) ≠ 15 ∧ (14 : Fin 16) ≠ 15 := by decide

/-- Two states that share configuration and context and nothing else need agree: one that completes, one that faults, one
that is refused. -/
theorem witness_OutcomeIsDecidedByConfigurationAndContext :
    v3.condPassed = true ∧ (∃ t, exec (.vmrsT32 0) (st cfg v3) = .next t) ∧
    exec (.vmrsT32 0) (st cfg (ctx .el0 3)) = .fault .undefined ∧
    exec (.vmrsT32 0) (st { cfg with hasAdvSimdFp := false } v3) = .refused .advSimdFpAbsent :=
  ⟨rfl, ⟨_, rfl⟩, rfl, rfl⟩

theorem witness_VmsrDoesNotReadTheRegisters :
    (∃ t, exec (.vmsrT32 1) (st cfg v3) = .next t) ∧ exec (.vmsrT32 1) (st cfg (ctx .el0 3)) = .fault .undefined ∧
    exec (.vmsrT32 15) (st cfg v3) = .refused .illFormedInstruction := ⟨⟨_, rfl⟩, rfl, rfl⟩

theorem witness_VmrsCopiesBitForBit :
    (Instr.vmrsT32 14).wellFormed = true ∧ (Instr.vmrsA32 0b0000 0).wellFormed = true ∧ cfg.hasAdvSimdFp = true ∧
    fpsidWf cfg = true ∧ accessCheck cfg v3 = none ∧ v3.condPassed = true := by decide

theorem witness_ReadingTwiceIsReadingOnce :
    v3.condPassed = true ∧ (∃ t, exec (.vmrsA32 0b0001 0) (st cfg v3) = .next t) ∧
    (∃ t, exec (.vmrsT32 14) (st cfg v3) = .next t) := ⟨rfl, ⟨_, rfl⟩, ⟨_, rfl⟩⟩

theorem witness_ReadAfterWriteReturnsFpsid :
    v3.condPassed = true ∧ (14 : Fin 16) ≠ 15 ∧ 0b0000#4 ≠ 0b1111#4 ∧
    (∃ t, exec (.vmsrA32 0b1110 1) (st cfg v3) = .next t) ∧ (∃ t, exec (.vmsrT32 1) (st cfg v3) = .next t) :=
  ⟨rfl, by decide, by decide, ⟨_, rfl⟩, ⟨_, rfl⟩⟩

theorem witness_DecodeOfEncodeIsTheInstruction :
    (Instr.vmrsA32 0b1110 14).wellFormed = true ∧ (Instr.vmrsA32 0b0000 0).wellFormed = true ∧
    (Instr.vmsrT32 14).wellFormed = true := by decide

theorem witness_EncodeOfDecodeIsTheWord :
    decode .a32 0xEEF0EA10 = .ok (.vmrsA32 0b1110 14) ∧ decode .t32 0xEEE01A10 = .ok (.vmsrT32 1) := by decide

theorem witness_DecoderRefusesByName :
    regField 0xEEF10A10 ≠ 0b0000#4 ∧ (0xEEF00A30#32 &&& 0x000000EF#32 ≠ 0#32 ∧ regField 0xEEF00A30 = 0b0000#4) ∧
    ((Instr.vmrsT32 14).wellFormed = true ∧ (Instr.vmrsT32 14).iset = .t32 ∧ (0x000000EF#32).getLsbD 7 = true) ∧
    rtField 0xEEF0FA10 = 15 ∧ condField 0xFEF00A10 = 0b1111#4 ∧ 0b1110#4 ≠ 0b1111#4 := by decide

/-- Where the clauses of t = 15 and of the condition 0b1111 meet: the condition is the name reported. -/
theorem witness_DecoderRefusesByName_condition1111_and_register15 :
    decode .a32 (encode (.vmrsA32 0b1111 15)) = .error .condition1111 ∧
    decode .a32 (encode (.vmsrA32 0b1111 15)) = .error .condition1111 := by decide

/-- A presented instruction that completes with nothing pending, one with a context pending, one that faults, one that is
refused. -/
theorem witness_StepRunsThePresentedInstruction :
    (program5.mem.lookup program5.pc.toNat = some 0x1EF03A10 ∧
      decodeWith program5.cfg.encodings program5.iset 0x1EF03A10 = .ok (.vmrsA32 0b0001 3)) ∧
    (∃ t, exec (.vmrsA32 0b0001 3) program5 = .next t ∧ t.pending = [⟨.a32, v3⟩]) ∧
    (∃ t, exec (.vmrsA32 0b0001 3) { program5 with pending := [] } = .next t ∧ t.pending = []) ∧
    exec (.vmrsA32 0b0001 3) { program5 with ctx := ctx .el0 3 } = .fault .undefined ∧
    exec (.vmrsA32 0b0001 3) { program5 with cfg := { cfg with hasAdvSimdFp := false } } = .refused .advSimdFpAbsent :=
  ⟨by decide, ⟨_, rfl, rfl⟩, ⟨_, rfl, rfl⟩, rfl, rfl⟩

theorem witness_StepRefusesWhatIsNotAnInstruction :
    (st cfg v3).mem.lookup (st cfg v3).pc.toNat = none ∧
    Memory.lookup [(0, 0xEEF10A10)] 0 = some 0xEEF10A10 ∧
    decodeWith (st cfg v3).cfg.encodings .a32 0xEEF10A10 = .error .outOfScope := by decide

theorem witness_LoadedTableWordIsTheNextInstruction :
    decodeTableWord 32 0xEEF00A10 = some (.vmrsT32 0) ∧
    (∃ t, exec (.vmrsT32 0) ((st cfg v3).withFetchWord 32 0xEEF00A10) = .next t) ∧
    exec (.vmrsT32 0) ((st cfg (ctx .el0 3)).withFetchWord 32 0xEEF00A10) = .fault .undefined ∧
    exec (.vmrsT32 0) ((st { cfg with hasAdvSimdFp := false } v3).withFetchWord 32 0xEEF00A10)
      = .refused .advSimdFpAbsent ∧
    (∃ t, exec (.vmrsT32 0) ((st { cfg with encodings := exchanged } v3).withFetchWord 32 0xEEF00A10) = .next t) :=
  ⟨by decide, ⟨_, rfl⟩, rfl, rfl, ⟨_, rfl⟩⟩

/-- Program 3 of 95_test_vectors.md. -/
theorem witness_NoStepCompletesAnAccessAtEl0 :
    ConfigAdmitted cfg ∧ (ctx .el0 3).el = .el0 ∧ (ctx .el0 3).condPassed = true ∧
    Memory.lookup [(0, 0xEEF02A10)] 0 = some 0xEEF02A10 ∧
    decodeWith cfg.encodings .a32 0xEEF02A10 = .ok (.vmrsA32 0b1110 2) := by decide

theorem witness_StepKeepsTheInvariant : RunInvariant program5 ∧ ∃ t, step program5 = .next t := ⟨by decide, ⟨_, rfl⟩⟩

/-- A run of one step from a state that is not the launch state. -/
theorem witness_EveryRunKeepsFpsidAndWritesOnlyFpsid : ∃ t, Host.Core.run Sys2Proof.core 1 program5 = .next t := ⟨_, rfl⟩

/-- The spec's table, and one that replaces it. -/
theorem witness_ReplacedTableDecodesItsOwnWords :
    TableAdmitted opcodeTable ∧ TableAdmitted exchanged ∧ (Instr.vmrsA32 0b0000 14).wellFormed = true ∧
    (Instr.vmsrT32 0).wellFormed = true := by decide

theorem witness_ReplacedTableReadsTheFieldsOfTheRow :
    decodeWith exchanged .a32 0xEEF0EA10 = .ok (.vmsrA32 0b1110 14) ∧ exchanged.vmsrA32.mask = ~~~operandBits .a32 ∧
    decodeWith opcodeTable .t32 0xEEE01A10 = .ok (.vmsrT32 1) ∧ opcodeTable.vmsrT32.mask = ~~~operandBits .t32 := by
  decide

end Sys2Proof.Tests
end

/-! PROOFS. FPSID as the concatenation of its six fields (10_state.md R20 to R22): its value as a shifted sum, what each
field reads back, and that no instruction changes the configuration that holds the fields. -/

namespace Sys2Proof.Machine

section FpsidLayout
variable (c : Config)

/-- The concatenation of R21 as the sum of the fields, each shifted past the widths of the fields below it. -/
theorem fpsidValue_eq_shiftedSum :
    fpsidValue c = (c.implementer.setWidth 32 <<< 24) ||| (c.sw.setWidth 32 <<< 23) ||| (c.subarch.setWidth 32 <<< 16)
      ||| (c.partNum.setWidth 32 <<< 8) ||| (c.variant.setWidth 32 <<< 4) ||| c.revision.setWidth 32 := by
  rw [← BitVec.setWidth_eq (fpsidValue c), fpsidValue]
  iterate 5 rw [BitVec.setWidth_append_eq_shiftLeft_setWidth_or]
  simp only [BitVec.shiftLeft_or_distrib, ← BitVec.shiftLeft_add, Nat.reduceAdd]

/-! A bit range reads back its field once the fields below it are dropped from the concatenation. -/

@[simp] theorem fpsidRevision_fpsidValue : fpsidRevision (fpsidValue c) = c.revision :=
  BitVec.extractLsb'_append_eq_right

@[simp] theorem fpsidVariant_fpsidValue : fpsidVariant (fpsidValue c) = c.variant := by
  rw [fpsidVariant, fpsidValue, BitVec.extractLsb'_append_eq_of_le (by decide)]
  exact BitVec.extractLsb'_append_eq_right

@[simp] theorem fpsidPartNum_fpsidValue : fpsidPartNum (fpsidValue c) = c.partNum := by
  rw [fpsidPartNum, fpsidValue]
  iterate 2 rw [BitVec.extractLsb'_append_eq_of_le (by decide)]
  exact BitVec.extractLsb'_append_eq_right

@[simp] theorem fpsidSubarch_fpsidValue : fpsidSubarch (fpsidValue c) = c.subarch := by
  rw [fpsidSubarch, fpsidValue]
  iterate 3 rw [BitVec.extractLsb'_append_eq_of_le (by decide)]
  exact BitVec.extractLsb'_append_eq_right

@[simp] theorem fpsidSw_fpsidValue : fpsidSw (fpsidValue c) = c.sw := by
  rw [fpsidSw, fpsidValue]
  iterate 4 rw [BitVec.extractLsb'_append_eq_of_le (by decide)]
  exact BitVec.extractLsb'_append_eq_right

@[simp] theorem fpsidImplementer_fpsidValue : fpsidImplementer (fpsidValue c) = c.implementer := by
  rw [fpsidImplementer, fpsidValue]
  iterate 5 rw [BitVec.extractLsb'_append_eq_of_le (by decide)]
  exact BitVec.extractLsb'_eq_self

end FpsidLayout

/-- Each bit range of R21 begins where the one below it ends, so joining the six gives the whole word. -/
theorem fpsidFields_append (v : Word) :
    fpsidImplementer v ++ fpsidSw v ++ fpsidSubarch v ++ fpsidPartNum v ++ fpsidVariant v ++ fpsidRevision v = v := by
  rw [fpsidImplementer, fpsidSw, fpsidSubarch, fpsidPartNum, fpsidVariant, fpsidRevision]
  iterate 5 rw [BitVec.extractLsb'_append_extractLsb'_eq_extractLsb' (by decide)]
  exact BitVec.extractLsb'_eq_self

@[simp] theorem permittedEffect_cfg (i : Instr) (s : State) : (permittedEffect i s).cfg = s.cfg := by
  cases i <;> rfl

/-- No instruction changes a parameter of the machine, the fields of FPSID among them (R22). -/
theorem exec_next_cfg {i : Instr} {s t : State} (h : exec i s = .next t) : t.cfg = s.cfg := by
  rw [exec_eq_access] at h
  obtain ⟨-, ⟨-, -, rfl⟩ | ⟨-, -, rfl⟩ | ⟨-, -, -, rfl⟩⟩ := access_next h
  · exact permittedEffect_cfg i s
  · rfl
  · exact State.draw_cfg s

/-- Settles O1: the layout is that of the concatenation of R21, and the fields are kept with the whole configuration. -/
theorem fpsidLayoutIsSixFields : Obligations.FpsidLayoutIsSixFields := by
  refine ⟨fun c => ⟨fpsidValue_eq_shiftedSum c, fpsidImplementer_fpsidValue c, fpsidSw_fpsidValue c,
    fpsidSubarch_fpsidValue c, fpsidPartNum_fpsidValue c, fpsidVariant_fpsidValue c, fpsidRevision_fpsidValue c⟩,
    fun _ v => fpsidFields_append v, fun s t i h => ?_⟩
  simp [exec_next_cfg h]

end Sys2Proof.Machine

/-! PROOFS. The access check as the spec writes it (40_fpsid_access.md R81 to R84): each level's check as a chain of steps
over the raw control fields, the first true one deciding. -/

namespace Sys2Proof.Machine

section AccessCheckSteps
open Safety
variable (c : Config) (x : AccessContext)

/-- R82: steps 1.1 to 1.9 in order, over the raw fields. -/
theorem checkEL1_eq_steps : checkEL1 c x =
    if Step11 c x then some .undefined
    else if Step12 c x then some .undefined
    else if Step13 c x then some (.systemAccessTrap .el2 0x07)
    else if Step14 c x then some (.systemAccessTrap .el2 0x07)
    else if Step15 c x then some (.hypTrap 0x08)
    else if Step16 c x then some (.systemAccessTrap .el2 0x08)
    else if Step17 c x then some (.hypTrap 0x08)
    else if Step18 c x then some (el3TrapFault x)
    else none := by
  simp only [checkEL1, el3TrapsFirst_iff, step12_iff, step13_iff, step14_iff, step15_iff, step16_iff, step17_iff,
    el3Traps_iff]

/-- R83: steps 2.1 to 2.4 in order, over the raw fields. -/
theorem checkEL2_eq_steps : checkEL2 c x =
    if Step11 c x then some .undefined
    else if Step22 c x then some (.hypTrap 0x00)
    else if Step18 c x then some (el3TrapFault x)
    else none := by
  simp only [checkEL2, el3TrapsFirst_iff, step22_iff, el3Traps_iff]

/-- R84: steps 3.1 and 3.2, over the raw field. -/
theorem checkEL3_eq_steps : checkEL3 x = if x.cpacrCp10 = 0b00#2 then some .undefined else none := by
  simp only [checkEL3, beq_iff_eq, BitVec.ofNat_eq_ofNat]

/-- R82 note (d): step 1.1 is step 1.8 taken early, on EL3SDDUndefPriority(). -/
theorem step11_iff_step18_and_priority : Step11 c x ↔ Step18 c x ∧ x.el3SddUndefPriority = true := by
  rw [← el3TrapsFirst_iff, Bool.and_eq_true, el3Traps_iff, and_comm]

variable {c x}

theorem el3TrapFault_of_undef (h : x.el3SddUndef = true) : el3TrapFault x = .undefined := if_pos h

theorem el3TrapFault_of_not_undef (h : x.el3SddUndef = false) : el3TrapFault x = .systemAccessTrap .el3 0x07 :=
  if_neg (by simp [h])

/-- R82 note (c): step 1.2 has already decided where NSACR denies, so step 1.5 is left with HCPTR.TCP10. -/
theorem step15_iff_of_not_step12 (h : ¬Step12 c x) : Step15 c x ↔
    x.el2Enabled = true ∧ c.featAA32EL2 = true ∧ x.el2Aarch32 = true ∧ x.hcptrTcp10 = 0b1#1 := by
  have hNsacr : ¬NsacrDenies c x := mt Or.inl h
  rw [Step15, or_iff_right hNsacr]

end AccessCheckSteps

/-- Settles O6: the chain of steps at EL1, taken at its first true condition; notes (c) and (d) relate the conditions. -/
theorem checkAtEl1FollowsItsNineSteps : Obligations.CheckAtEl1FollowsItsNineSteps := by
  intro c x hFeat hEl
  rw [accessCheck_el1 hFeat hEl, checkEL1_eq_steps]
  refine ⟨?step11, ?step12, ?step13, ?step14, ?step15, ?step16, ?step17, ?step18Undef, ?step18Trap, ?step19,
    step15_iff_of_not_step12, step11_iff_step18_and_priority c x⟩
  case step18Undef =>
    intro _ _ _ _ _ _ _ _ hUndef
    simp (disch := assumption) only [if_neg, if_pos, el3TrapFault_of_undef hUndef]
  case step18Trap =>
    intro _ _ _ _ _ _ _ _ hTrap
    simp (disch := assumption) only [if_neg, if_pos, el3TrapFault_of_not_undef hTrap]
  all_goals
    intros
    simp (disch := assumption) only [if_neg, if_pos]

/-- Settles O7: the chain of steps at EL2, taken at its first true condition. -/
theorem checkAtEl2FollowsItsFourSteps : Obligations.CheckAtEl2FollowsItsFourSteps := by
  intro c x hFeat hEl
  rw [accessCheck_el2 hFeat hEl, checkEL2_eq_steps]
  refine ⟨?step21, ?step22, ?step23Undef, ?step23Trap, ?step24⟩
  case step21 => intro h1; rw [if_pos h1]
  case step22 => intro n1 h2; rw [if_neg n1, if_pos h2]
  case step23Undef => intro n1 n2 h3 hUndef; rw [if_neg n1, if_neg n2, if_pos h3, el3TrapFault_of_undef hUndef]
  case step23Trap => intro n1 n2 h3 hTrap; rw [if_neg n1, if_neg n2, if_pos h3, el3TrapFault_of_not_undef hTrap]
  case step24 => intro n1 n2 n3; rw [if_neg n1, if_neg n2, if_neg n3]

/-- R84 with R81: the verdict at EL3 is a function of CPACR.cp10. -/
theorem accessCheck_el3_eq_steps {c : Config} {x : AccessContext} (hFeat : c.featAA32EL1 = true) (hEl : x.el = .el3) :
    accessCheck c x = if x.cpacrCp10 = 0b00#2 then some .undefined else none :=
  (accessCheck_el3 hFeat hEl).trans (checkEL3_eq_steps x)

/-- Settles O8: two accesses at EL3 with the same CPACR.cp10 are given the same verdict by the same function. -/
theorem checkAtEl3ConsultsCpacrAlone : Obligations.CheckAtEl3ConsultsCpacrAlone := by
  refine ⟨fun c x hFeat hEl => ?decides, fun c d x y hc hd hx hy hCp10 => ?alone⟩
  case decides =>
    rw [accessCheck_el3_eq_steps hFeat hEl]
    exact ⟨fun h => if_pos h, fun h => if_neg h⟩
  case alone => rw [accessCheck_el3_eq_steps hc hx, accessCheck_el3_eq_steps hd hy, hCp10]

/-- Settles O5: step by step of R81, the equations of the check by feature and level. -/
theorem checkDispatchesOnFeatureAndLevel : Obligations.CheckDispatchesOnFeatureAndLevel := fun _ _ =>
  ⟨accessCheck_absent, fun _ => accessCheck_el0, accessCheck_el1, accessCheck_el2, accessCheck_el3⟩

end Sys2Proof.Machine

/-! PROOFS. The fault table of 60_exceptions.md R113 read in R115's order: the rows of the access's own Exception level
are the steps of that level's check, one row for each step but the EL3 trap, which the table splits on EL3SDDUndef(). -/

namespace Sys2Proof.Machine

section FaultTable
open Safety
variable {c : Config} {x : AccessContext} {l : ExceptionLevel} {cause : Config → AccessContext → Bool} {f : Fault}
  {rest : List FaultRow}

@[simp] theorem firstFault_nil : firstFault [] c x = none := rfl

/-- A row for every Exception level. -/
theorem firstFault_cons_anyLevel :
    firstFault (⟨none, cause, f⟩ :: rest) c x = if cause c x then some f else firstFault rest c x := rfl

/-- A row for the Exception level of the access. -/
theorem firstFault_cons_sameLevel (h : x.el = l) :
    firstFault (⟨some l, cause, f⟩ :: rest) c x = if cause c x then some f else firstFault rest c x := by
  simp [firstFault, FaultRow.applies, h]

/-- A row for another Exception level is passed over. -/
theorem firstFault_cons_otherLevel (h : x.el ≠ l) :
    firstFault (⟨some l, cause, f⟩ :: rest) c x = firstFault rest c x := by
  simp [firstFault, FaultRow.applies, h.symm]

theorem causeEl3Trap_eq_el3Traps : causeEl3Trap c x = el3Traps c x := rfl

theorem causeNsacr_eq_nsacrDisables : causeNsacr c x = nsacrDisables c x := rfl

/-- The pattern 'x0' as the table spells it out. -/
theorem fpenTraps_eq : fpenTraps x = (x.cptrEl2Fpen == 0b00 || x.cptrEl2Fpen == 0b10) := by
  rw [Bool.eq_iff_iff, fpenTraps_iff]
  simp

/-- The table's two rows of the EL3 trap are the one step that takes it. -/
theorem el3TrapRows_eq_step {other : Option Fault} :
    (if el3Traps c x && x.el3SddUndef then some .undefined
      else if el3Traps c x && !x.el3SddUndef then some (.systemAccessTrap .el3 0x07) else other) =
    if el3Traps c x then some (el3TrapFault x) else other := by
  cases hUndef : x.el3SddUndef
  · simp [el3TrapFault_of_not_undef hUndef]
  · simp [el3TrapFault_of_undef hUndef]

/-- Row 1 applies where FEAT_AA32EL1 is absent. -/
theorem firstFault_faultTable_absent (hFeat : c.featAA32EL1 = false) : firstFault faultTable c x = some .undefined := by
  rw [faultTable, firstFault_cons_anyLevel, hFeat]
  rfl

/-- Row 1 is passed over where FEAT_AA32EL1 is present. -/
theorem firstFault_faultTable_present (hFeat : c.featAA32EL1 = true) :
    firstFault faultTable c x = firstFault faultTable.tail c x := by
  rw [faultTable, firstFault_cons_anyLevel, hFeat]
  rfl

/-- Row 2 applies at EL0. -/
theorem firstFault_faultTable_el0 (hFeat : c.featAA32EL1 = true) (hEl : x.el = .el0) :
    firstFault faultTable c x = some .undefined := by
  rw [firstFault_faultTable_present hFeat, faultTable, List.tail_cons, firstFault_cons_sameLevel hEl, if_pos rfl]

/-- Rows 3 to 11 are CheckEL1; once 'x0' is spelled out, the conditions left unfold to the table's. -/
theorem firstFault_faultTable_el1 (hFeat : c.featAA32EL1 = true) (hEl : x.el = .el1) :
    firstFault faultTable c x = checkEL1 c x := by
  rw [firstFault_faultTable_present hFeat]
  simp (disch := simp [hEl]) only [faultTable, List.tail_cons, firstFault_cons_sameLevel hEl,
    firstFault_cons_otherLevel, firstFault_nil, causeEl3Trap_eq_el3Traps, causeNsacr_eq_nsacrDisables,
    el3TrapRows_eq_step]
  rw [checkEL1, fpenTraps_eq]
  rfl

/-- Rows 12 to 15 are CheckEL2. -/
theorem firstFault_faultTable_el2 (hFeat : c.featAA32EL1 = true) (hEl : x.el = .el2) :
    firstFault faultTable c x = checkEL2 c x := by
  rw [firstFault_faultTable_present hFeat]
  simp (disch := simp [hEl]) only [faultTable, List.tail_cons, firstFault_cons_sameLevel hEl,
    firstFault_cons_otherLevel, firstFault_nil, causeEl3Trap_eq_el3Traps, causeNsacr_eq_nsacrDisables,
    el3TrapRows_eq_step, checkEL2]

/-- Row 16 is CheckEL3. -/
theorem firstFault_faultTable_el3 (hFeat : c.featAA32EL1 = true) (hEl : x.el = .el3) :
    firstFault faultTable c x = checkEL3 x := by
  rw [firstFault_faultTable_present hFeat]
  simp (disch := simp [hEl]) only [faultTable, List.tail_cons, firstFault_cons_sameLevel hEl,
    firstFault_cons_otherLevel, firstFault_nil, checkEL3]

end FaultTable

/-- Settles O10: by the feature and the Exception level, the steps of the check are the rows the table has for them. -/
theorem checkReportsTheFirstRowOfTheFaultTable : Obligations.CheckReportsTheFirstRowOfTheFaultTable := by
  intro c x
  cases hFeat : c.featAA32EL1 with
  | false => rw [accessCheck_absent hFeat, firstFault_faultTable_absent hFeat]
  | true =>
    cases hEl : x.el with
    | el0 => rw [accessCheck_el0 hEl, firstFault_faultTable_el0 hFeat hEl]
    | el1 => rw [accessCheck_el1 hFeat hEl, firstFault_faultTable_el1 hFeat hEl]
    | el2 => rw [accessCheck_el2 hFeat hEl, firstFault_faultTable_el2 hFeat hEl]
    | el3 => rw [accessCheck_el3 hFeat hEl, firstFault_faultTable_el3 hFeat hEl]

end Sys2Proof.Machine

/-! PROOFS. Words and instructions (30_encoding.md R61 to R72) over any admitted table: a word is its row's pattern and
the operands in their fields, and each can be told from the other. -/

namespace Sys2Proof

open Safety

/-! ## Operand fields -/

/-- The operands of an instruction, in place: what the encoder adds to the pattern of the row. -/
def Instr.operands : Instr → Word
  | .vmrsA32 cond rt => condBits cond ||| rtBits rt
  | .vmrsT32 rt => rtBits rt
  | .vmsrA32 cond rt => condBits cond ||| rtBits rt
  | .vmsrT32 rt => rtBits rt

theorem encodeWith_eq_pattern_or_operands (table : EncodingTable) (i : Instr) :
    encodeWith table i = (table.row i).pattern ||| i.operands := by
  cases i
  case vmrsA32 | vmsrA32 => exact BitVec.or_assoc ..
  case vmrsT32 | vmsrT32 => rfl

section Fields
variable (cond : BitVec 4) (rt : Fin 16) (iset : ISet) (w : Word)

theorem rtField_rtBits : rtField (rtBits rt) = rt := by
  revert rt
  decide

theorem rtField_condBits_or_rtBits : rtField (condBits cond ||| rtBits rt) = rt := by
  revert cond rt
  decide

theorem condField_condBits_or_rtBits : condField (condBits cond ||| rtBits rt) = cond := by
  revert cond rt
  decide

/-- The Rt field lies within the operand bits. -/
theorem rtField_and_operandBits : rtField (w &&& operandBits iset) = rtField w := by
  have hMask : (operandBits iset).extractLsb' 12 4 = BitVec.allOnes 4 := by cases iset <;> decide
  rw [rtField, BitVec.extractLsb'_and, hMask, BitVec.and_allOnes, rtField]

/-- The condition field lies within the operand bits of A32. -/
theorem condField_and_operandBits : condField (w &&& operandBits .a32) = condField w := by
  have hMask : (operandBits .a32).extractLsb' 28 4 = BitVec.allOnes 4 := by decide
  rw [condField, BitVec.extractLsb'_and, hMask, BitVec.and_allOnes, condField]

/-- Bits [15:12] of a word, in place. -/
theorem rtBits_rtField : rtBits (rtField w) = w &&& 0x0000F000#32 := by
  have hMask : ∀ k < 32, (0x0000F000#32).getLsbD k = (decide (12 ≤ k) && decide (k < 16)) := by decide
  refine BitVec.eq_of_getLsbD_eq fun k hk => ?_
  rw [rtBits_rtField_getLsbD, BitVec.getLsbD_and, hMask k hk, Bool.and_comm]

/-- Bits [31:28] of a word, in place. -/
theorem condBits_condField : condBits (condField w) = w &&& 0xF0000000#32 := by
  have hMask : ∀ k < 32, (0xF0000000#32).getLsbD k = (decide (28 ≤ k) && decide (k < 32)) := by decide
  refine BitVec.eq_of_getLsbD_eq fun k hk => ?_
  rw [condBits_condField_getLsbD, BitVec.getLsbD_and, hMask k hk, Bool.and_comm]

theorem condBits_or_rtBits_fields : condBits (condField w) ||| rtBits (rtField w) = w &&& operandBits .a32 := by
  rw [condBits_condField, rtBits_rtField, ← BitVec.and_or_distrib_left]
  rfl

end Fields

/-- The operands fill no bit outside the operand bits. -/
theorem Instr.operands_and_operandBits (i : Instr) : i.operands &&& operandBits i.iset = i.operands := by
  cases i with
  | vmrsA32 cond rt | vmsrA32 cond rt => revert cond rt; decide
  | vmrsT32 rt | vmsrT32 rt => revert rt; decide

/-- An instruction whose operands are the fields of a word has the operand bits of the word. -/
theorem Instr.operands_eq_of_fields {i : Instr} {w : Word} (hRt : i.rt = rtField w)
    (hCond : ∀ cond rt, (i = .vmrsA32 cond rt ∨ i = .vmsrA32 cond rt) → cond = condField w) :
    i.operands = w &&& operandBits i.iset := by
  cases i with
  | vmrsA32 cond rt =>
    obtain rfl : rt = rtField w := hRt
    obtain rfl := hCond cond _ (.inl rfl)
    exact condBits_or_rtBits_fields w
  | vmsrA32 cond rt =>
    obtain rfl : rt = rtField w := hRt
    obtain rfl := hCond cond _ (.inr rfl)
    exact condBits_or_rtBits_fields w
  | vmrsT32 rt | vmsrT32 rt =>
    obtain rfl : rt = rtField w := hRt
    exact rtBits_rtField w

/-! ## Rows -/

/-- No word fits both of two rows that are apart. -/
theorem EncodingRow.not_hits_of_rowsApart {p q : EncodingRow} {w : Word} (h : RowsApart p q) (hq : q.hits w = true) :
    ¬p.hits w = true := by
  refine fun hp => h ?_
  rw [EncodingRow.hits_iff] at hp hq
  rw [← hp, ← hq]
  have hBit : ∀ b m n : Bool, (((b && m) ^^ (b && n)) && (m && n)) = false := by decide
  ext k hk
  simpa only [BitVec.getElem_and, BitVec.getElem_xor, BitVec.getElem_zero] using hBit w[k] p.mask[k] q.mask[k]

section Admitted
variable {iset : ISet} {r : EncodingRow} {o : Word}

/-- A word made of an admitted row's pattern and operands fits the row. -/
theorem EncodingRow.hits_pattern_or (h : RowAdmitted iset r) (ho : o &&& operandBits iset = o) :
    r.hits (r.pattern ||| o) = true := by
  obtain ⟨hPattern, hFree⟩ := h
  rw [EncodingRow.hits_iff]
  calc (r.pattern ||| o) &&& r.mask
      = (r.pattern &&& r.mask) ||| (o &&& operandBits iset) &&& r.mask := by rw [BitVec.and_or_distrib_right, ho]
    _ = r.pattern := by rw [hPattern, BitVec.and_assoc, BitVec.and_comm _ r.mask, hFree, BitVec.and_zero, BitVec.or_zero]

/-- Such a word has the operands in its operand bits. -/
theorem EncodingRow.pattern_or_and_operandBits (h : RowAdmitted iset r) (ho : o &&& operandBits iset = o) :
    (r.pattern ||| o) &&& operandBits iset = o := by
  obtain ⟨hPattern, hFree⟩ := h
  rw [BitVec.and_or_distrib_right, ho, ← hPattern, BitVec.and_assoc, hFree, BitVec.and_zero, BitVec.zero_or]

end Admitted

/-! ## Decoding an encoded instruction -/

section Table
variable {table : EncodingTable} (hTable : TableAdmitted table)
include hTable

theorem EncodingTable.rowAdmitted (i : Instr) : RowAdmitted i.iset (table.row i) := by
  obtain ⟨h1, h2, h3, h4, -, -⟩ := hTable
  cases i <;> assumption

/-- The word of an instruction fits its row. -/
theorem hits_encodeWith (i : Instr) : (table.row i).hits (encodeWith table i) = true := by
  rw [encodeWith_eq_pattern_or_operands]
  exact EncodingRow.hits_pattern_or (EncodingTable.rowAdmitted hTable i) i.operands_and_operandBits

/-- The word of an instruction has its operands in the operand bits. -/
theorem encodeWith_and_operandBits (i : Instr) : encodeWith table i &&& operandBits i.iset = i.operands := by
  rw [encodeWith_eq_pattern_or_operands]
  exact EncodingRow.pattern_or_and_operandBits (EncodingTable.rowAdmitted hTable i) i.operands_and_operandBits

/-- The Rt field of an instruction's word is its register. -/
theorem rtField_encodeWith (i : Instr) : rtField (encodeWith table i) = i.rt := by
  rw [← rtField_and_operandBits i.iset, encodeWith_and_operandBits hTable]
  cases i with
  | vmrsA32 cond rt | vmsrA32 cond rt => exact rtField_condBits_or_rtBits cond rt
  | vmrsT32 rt | vmsrT32 rt => exact rtField_rtBits rt

/-- The condition field of an A32 instruction's word is its condition. -/
theorem condField_encodeWith (i : Instr) (cond : BitVec 4) (rt : Fin 16)
    (hi : i = .vmrsA32 cond rt ∨ i = .vmsrA32 cond rt) : condField (encodeWith table i) = cond := by
  have hOperands := encodeWith_and_operandBits hTable i
  rw [← condField_and_operandBits]
  obtain rfl | rfl := hi
  · exact (congrArg condField hOperands).trans (condField_condBits_or_rtBits cond rt)
  · exact (congrArg condField hOperands).trans (condField_condBits_or_rtBits cond rt)

end Table

/-- What the decoder says of the word of an instruction, well-formed or not (R66, R68). -/
def Instr.operandVerdict (i : Instr) : Except Rejection Instr :=
  match i with
  | .vmrsA32 cond rt | .vmsrA32 cond rt =>
    if admittedCondition cond then if admittedRegister rt then .ok i else .error .register15 else .error .condition1111
  | .vmrsT32 rt | .vmsrT32 rt => if admittedRegister rt then .ok i else .error .register15

theorem Instr.operandVerdict_of_wellFormed {i : Instr} (h : i.wellFormed = true) : i.operandVerdict = .ok i := by
  cases i with
  | vmrsA32 cond rt | vmsrA32 cond rt =>
    obtain ⟨hCond, hRt⟩ := Bool.and_eq_true_iff.mp h
    simp [operandVerdict, hCond, hRt]
  | vmrsT32 rt | vmsrT32 rt => exact if_pos h

theorem decodeA32Operands_of_fields (form : BitVec 4 → Fin 16 → Instr) {w : Word} {cond : BitVec 4} {rt : Fin 16}
    (hCond : condField w = cond) (hRt : rtField w = rt) : decodeA32Operands form w =
      if admittedCondition cond then if admittedRegister rt then .ok (form cond rt) else .error .register15
      else .error .condition1111 := by
  rw [decodeA32Operands, hCond, hRt]

theorem decodeT32Operands_of_field (form : Fin 16 → Instr) {w : Word} {rt : Fin 16} (hRt : rtField w = rt) :
    decodeT32Operands form w = if admittedRegister rt then .ok (form rt) else .error .register15 := by
  rw [decodeT32Operands, hRt]

/-- By any admitted table the word of an instruction fits its own row and no other, and is then judged by its operands. -/
theorem decodeWith_encodeWith {table : EncodingTable} (hTable : TableAdmitted table) (i : Instr) :
    decodeWith table i.iset (encodeWith table i) = i.operandVerdict := by
  have hHits := hits_encodeWith hTable i
  have hRt := rtField_encodeWith hTable i
  have hCond := condField_encodeWith hTable i
  obtain ⟨-, -, -, -, hApartA32, hApartT32⟩ := hTable
  cases i with
  | vmrsA32 cond rt => exact (if_pos hHits).trans (decodeA32Operands_of_fields _ (hCond cond rt (.inl rfl)) hRt)
  | vmsrA32 cond rt =>
    exact (if_neg (EncodingRow.not_hits_of_rowsApart hApartA32 hHits)).trans
      ((if_pos hHits).trans (decodeA32Operands_of_fields _ (hCond cond rt (.inr rfl)) hRt))
  | vmrsT32 rt => exact (if_pos hHits).trans (decodeT32Operands_of_field _ hRt)
  | vmsrT32 rt =>
    exact (if_neg (EncodingRow.not_hits_of_rowsApart hApartT32 hHits)).trans
      ((if_pos hHits).trans (decodeT32Operands_of_field _ hRt))

theorem tableAdmitted_opcodeTable : TableAdmitted opcodeTable := by decide

theorem decode_encode (i : Instr) : decode i.iset (encode i) = i.operandVerdict :=
  decodeWith_encodeWith tableAdmitted_opcodeTable i

/-- Settles O40: the word's verdict is that of its operands, which a well-formed instruction passes. -/
theorem replacedTableDecodesItsOwnWords : Obligations.ReplacedTableDecodesItsOwnWords :=
  ⟨tableAdmitted_opcodeTable, fun _ _ hTable hi =>
    (decodeWith_encodeWith hTable _).trans (Instr.operandVerdict_of_wellFormed hi)⟩

/-- Settles O29: the spec's own table is admitted. -/
theorem decodeOfEncodeIsTheInstruction : Obligations.DecodeOfEncodeIsTheInstruction := fun i hi =>
  (decode_encode i).trans (Instr.operandVerdict_of_wellFormed hi)

/-! ## Encoding a decoded word -/

/-- Where the row of the decoded instruction fixes every bit but the operands, the encoder gives the word back. -/
theorem encodeWith_of_decodeWith {table : EncodingTable} {iset : ISet} {w : Word} {i : Instr}
    (h : decodeWith table iset w = .ok i) (hMask : (table.row i).mask = ~~~operandBits iset) :
    encodeWith table i = w := by
  obtain ⟨-, hIset, hHits, hRt, hCond⟩ := decodeWith_ok h
  rw [EncodingRow.hits_iff] at hHits
  calc encodeWith table i
      = (w &&& ~~~operandBits iset) ||| (w &&& operandBits iset) := by
        rw [encodeWith_eq_pattern_or_operands, ← hHits, hMask, Instr.operands_eq_of_fields hRt hCond, hIset]
    _ = w := by rw [← BitVec.and_or_distrib_left, BitVec.or_comm, BitVec.or_not_self, BitVec.and_allOnes]

/-- Settles O41: the inversion of the decoder, and its last clause the word put together again. -/
theorem replacedTableReadsTheFieldsOfTheRow : Obligations.ReplacedTableReadsTheFieldsOfTheRow := by
  intro table iset w i h
  obtain ⟨hWf, hIset, hHits, hRt, hCond⟩ := decodeWith_ok h
  exact ⟨hWf, hIset, (EncodingRow.hits_iff _ _).mp hHits, hRt, hCond, encodeWith_of_decodeWith h⟩

/-- The rows of the spec fix every bit but the operands. -/
theorem opcodeTable_row_mask (i : Instr) : (opcodeTable.row i).mask = ~~~operandBits i.iset := by
  cases i
  case vmrsA32 | vmsrA32 => exact (by decide : (0x0FFF0FFF#32) = ~~~operandBits .a32)
  case vmrsT32 | vmsrT32 => exact (by decide : (0xFFFF0FFF#32) = ~~~operandBits .t32)

/-! ## What the rows of the spec fix beside the operands -/

/-- The row of the read in an instruction set. -/
def EncodingTable.readRow (table : EncodingTable) : ISet → EncodingRow
  | .a32 => table.vmrsA32
  | .t32 => table.vmrsT32

/-- The row of the write in an instruction set. -/
def EncodingTable.writeRow (table : EncodingTable) : ISet → EncodingRow
  | .a32 => table.vmsrA32
  | .t32 => table.vmsrT32

theorem EncodingTable.row_eq_readRow_or_writeRow (table : EncodingTable) (i : Instr) :
    table.row i = table.readRow i.iset ∨ table.row i = table.writeRow i.iset := by
  cases i
  case vmrsA32 | vmrsT32 => exact .inl rfl
  case vmsrA32 | vmsrT32 => exact .inr rfl

/-- A word that fits neither row of its instruction set is judged by how it misses them. -/
theorem decodeWith_eq_decodeMiss {table : EncodingTable} {iset : ISet} {w : Word}
    (hRead : ¬(table.readRow iset).hits w = true) (hWrite : ¬(table.writeRow iset).hits w = true) :
    decodeWith table iset w = decodeMiss (table.readRow iset) (table.writeRow iset) w := by
  cases iset <;> exact (if_neg hRead).trans (if_neg hWrite)

/-- The row fixes `reg` = 0b0000 (R61) and the should-be-zero bits at zero (R67). -/
structure EncodingRow.FixesRegAndZeros (r : EncodingRow) : Prop where
  regMask : regField (r.mask &&& ~~~shouldBeZeroBits) = BitVec.allOnes 4
  regPattern : regField (r.pattern &&& ~~~shouldBeZeroBits) = 0b0000#4
  zerosMask : r.mask &&& shouldBeZeroBits = shouldBeZeroBits
  zerosPattern : r.pattern &&& shouldBeZeroBits = 0#32

theorem fixesRegAndZeros_readRow (iset : ISet) : (opcodeTable.readRow iset).FixesRegAndZeros := by
  cases iset <;> exact ⟨by decide, by decide, by decide, by decide⟩

theorem fixesRegAndZeros_writeRow (iset : ISet) : (opcodeTable.writeRow iset).FixesRegAndZeros := by
  cases iset <;> exact ⟨by decide, by decide, by decide, by decide⟩

theorem fixesRegAndZeros_row (i : Instr) : (opcodeTable.row i).FixesRegAndZeros := by
  rcases opcodeTable.row_eq_readRow_or_writeRow i with h | h <;> rw [h]
  · exact fixesRegAndZeros_readRow i.iset
  · exact fixesRegAndZeros_writeRow i.iset

/-- A word that fits a row fits it in every bit but the should-be-zero bits, whatever those bits hold. -/
theorem EncodingRow.nearMiss_or {r : EncodingRow} {w z : Word} (h : r.hits w = true)
    (hz : z &&& ~~~shouldBeZeroBits = 0#32) : r.nearMiss (w ||| z) = true := by
  rw [EncodingRow.hits_iff] at h
  rw [EncodingRow.nearMiss, beq_iff_eq]
  calc (w ||| z) &&& (r.mask &&& ~~~shouldBeZeroBits)
      = (w &&& r.mask &&& ~~~shouldBeZeroBits) ||| (z &&& ~~~shouldBeZeroBits &&& r.mask) := by
        rw [BitVec.and_or_distrib_right, BitVec.and_assoc, BitVec.and_assoc, BitVec.and_comm r.mask]
    _ = r.pattern &&& ~~~shouldBeZeroBits := by rw [h, hz, BitVec.zero_and, BitVec.or_zero]

theorem EncodingRow.nearMiss_of_hits {r : EncodingRow} {w : Word} (h : r.hits w = true) : r.nearMiss w = true := by
  simpa using EncodingRow.nearMiss_or h (BitVec.zero_and (x := ~~~shouldBeZeroBits))

section FixedBits
variable {r : EncodingRow} {w : Word} (hr : r.FixesRegAndZeros)
include hr

/-- A word that fits such a row but for the should-be-zero bits selects FPSID. -/
theorem regField_of_nearMiss (h : r.nearMiss w = true) : regField w = 0b0000#4 := by
  rw [EncodingRow.nearMiss, beq_iff_eq] at h
  rw [← hr.regPattern, ← h, regField, regField, BitVec.extractLsb'_and]
  exact (congrArg (w.extractLsb' 16 4 &&& ·) hr.regMask).trans BitVec.and_allOnes |>.symm

/-- A word that fits such a row has its should-be-zero bits at zero. -/
theorem and_shouldBeZeroBits_of_hits (h : r.hits w = true) : w &&& shouldBeZeroBits = 0#32 := by
  rw [EncodingRow.hits_iff] at h
  rw [← hr.zerosMask, ← BitVec.and_assoc, h, hr.zerosPattern]

theorem not_hits_of_shouldBeZeroBits (h : w &&& shouldBeZeroBits ≠ 0#32) : ¬r.hits w = true :=
  mt (and_shouldBeZeroBits_of_hits hr) h

theorem not_nearMiss_of_regField (h : regField w ≠ 0b0000#4) : ¬r.nearMiss w = true :=
  mt (regField_of_nearMiss hr) h

theorem not_hits_of_regField (h : regField w ≠ 0b0000#4) : ¬r.hits w = true :=
  mt EncodingRow.nearMiss_of_hits (not_nearMiss_of_regField hr h)

end FixedBits

/-- Settles O30: the rows of the spec fix every bit but the operands, `reg` = 0b0000 among them. -/
theorem encodeOfDecodeIsTheWord : Obligations.EncodeOfDecodeIsTheWord := by
  intro iset w i h
  obtain ⟨hWf, rfl, hHits, -, -⟩ := decodeWith_ok h
  have hReg : regField w = 0b0000#4 :=
    regField_of_nearMiss (fixesRegAndZeros_row i) (EncodingRow.nearMiss_of_hits hHits)
  exact ⟨hWf, rfl, encodeWith_of_decodeWith h (opcodeTable_row_mask i), if_pos hReg⟩

/-! ## Refusals -/

/-- A word with another `reg` is out of scope. -/
theorem decode_of_regField_ne {iset : ISet} {w : Word} (h : regField w ≠ 0b0000#4) :
    decode iset w = .error .outOfScope := by
  have hRead := fixesRegAndZeros_readRow iset
  have hWrite := fixesRegAndZeros_writeRow iset
  rw [decode, decodeWith_eq_decodeMiss (not_hits_of_regField hRead h) (not_hits_of_regField hWrite h), decodeMiss]
  refine if_neg fun hMiss => ?_
  exact (Bool.or_eq_true_iff.mp hMiss).elim (not_nearMiss_of_regField hRead h) (not_nearMiss_of_regField hWrite h)

/-- A word with a should-be-zero bit set fits no row. -/
theorem decode_of_shouldBeZeroBits {iset : ISet} {w : Word} (h : w &&& shouldBeZeroBits ≠ 0#32) :
    decode iset w = decodeMiss (opcodeTable.readRow iset) (opcodeTable.writeRow iset) w :=
  decodeWith_eq_decodeMiss (not_hits_of_shouldBeZeroBits (fixesRegAndZeros_readRow iset) h)
    (not_hits_of_shouldBeZeroBits (fixesRegAndZeros_writeRow iset) h)

theorem decodeMiss_eq_shouldBeZero_or_outOfScope (read write : EncodingRow) (w : Word) :
    decodeMiss read write w = .error .shouldBeZero ∨ decodeMiss read write w = .error .outOfScope := by
  unfold decodeMiss
  split
  · exact .inl rfl
  · exact .inr rfl

/-- A should-be-zero bit lies within the should-be-zero bits and nowhere else. -/
theorem shouldBeZeroBit_masked : ∀ k : Fin 32, shouldBeZeroBits.getLsbD k.val = true →
    (1#32 <<< k.val) &&& shouldBeZeroBits ≠ 0#32 ∧ (1#32 <<< k.val) &&& ~~~shouldBeZeroBits = 0#32 := by
  decide

/-- An instruction's word with one should-be-zero bit set is refused as that. -/
theorem decode_encode_or_shouldBeZeroBit (i : Instr) {k : Fin 32} (hk : shouldBeZeroBits.getLsbD k.val = true) :
    decode i.iset (encode i ||| (1#32 <<< k.val)) = .error .shouldBeZero := by
  obtain ⟨hInside, hOutside⟩ := shouldBeZeroBit_masked k hk
  have hSet : (encode i ||| (1#32 <<< k.val)) &&& shouldBeZeroBits ≠ 0#32 := by
    rw [BitVec.and_or_distrib_right, Ne, BitVec.or_eq_zero_iff]
    exact fun h => hInside h.2
  have hNear : (opcodeTable.row i).nearMiss (encode i ||| (1#32 <<< k.val)) = true :=
    EncodingRow.nearMiss_or (hits_encodeWith tableAdmitted_opcodeTable i) hOutside
  rw [decode_of_shouldBeZeroBits hSet, decodeMiss]
  refine if_pos (Bool.or_eq_true_iff.mpr ?_)
  rcases opcodeTable.row_eq_readRow_or_writeRow i with h | h <;> rw [h] at hNear
  · exact .inl hNear
  · exact .inr hNear

theorem Instr.rt_ne_of_wellFormed {i : Instr} (h : i.wellFormed = true) : i.rt ≠ 15 := by
  cases i with
  | vmrsA32 cond rt | vmsrA32 cond rt => exact bne_iff_ne.mp (Bool.and_eq_true_iff.mp h).2
  | vmrsT32 rt | vmsrT32 rt => exact bne_iff_ne.mp h

theorem decode_ne_ok_of_rtField {iset : ISet} {w : Word} {i : Instr} (hw : rtField w = 15) : decode iset w ≠ .ok i := by
  intro h
  obtain ⟨hWf, -, -, hRt, -⟩ := decodeWith_ok h
  exact Instr.rt_ne_of_wellFormed hWf (hRt.trans hw)

theorem decode_ne_ok_of_condField {w : Word} {i : Instr} (hw : condField w = 0b1111#4) : decode .a32 w ≠ .ok i := by
  intro h
  obtain ⟨hWf, hIset, -, -, hCond⟩ := decodeWith_ok h
  cases i with
  | vmrsA32 cond rt =>
    exact bne_iff_ne.mp (Bool.and_eq_true_iff.mp hWf).1 ((hCond cond rt (.inl rfl)).trans hw)
  | vmsrA32 cond rt =>
    exact bne_iff_ne.mp (Bool.and_eq_true_iff.mp hWf).1 ((hCond cond rt (.inr rfl)).trans hw)
  | vmrsT32 rt | vmsrT32 rt => cases hIset

/-- Settles O31: another `reg` and a set should-be-zero bit fit no row; the operands' verdict names the rest. -/
theorem decoderRefusesByName : Obligations.DecoderRefusesByName := by
  refine ⟨fun _ _ => decode_of_regField_ne, fun _ _ hSet _ => ?_, ?_, fun _ _ _ => decode_ne_ok_of_rtField,
    fun _ _ => decode_ne_ok_of_condField, fun cond hCond => ?_, ⟨decode_encode (.vmrsT32 15), decode_encode (.vmsrT32 15)⟩,
    fun rt => ⟨decode_encode (.vmrsA32 0b1111 rt), decode_encode (.vmsrA32 0b1111 rt)⟩⟩
  · rw [decode_of_shouldBeZeroBits hSet]
    exact decodeMiss_eq_shouldBeZero_or_outOfScope _ _ _
  · rintro _ i k - rfl hk
    exact decode_encode_or_shouldBeZeroBit i hk
  · have hAdmitted : admittedCondition cond = true := bne_iff_ne.mpr hCond
    exact ⟨(decode_encode (.vmrsA32 cond 15)).trans (if_pos hAdmitted),
      (decode_encode (.vmsrA32 cond 15)).trans (if_pos hAdmitted)⟩

/-- Settles O32: seven words, each run through the decoder. -/
theorem specWordsDecode : Obligations.SpecWordsDecode := by
  unfold Obligations.SpecWordsDecode
  decide

end Sys2Proof

/-! PROOFS. FPSID_WF over the raw fields (10_state.md R24 to R27, R33): what the Subarchitecture means by its range, and
the shapes Armv8-A leaves. -/

namespace Sys2Proof.Machine

section Subarchitecture
variable (sub : BitVec 7)

/-- Bit 6 of the field parts its values at 0x40. -/
theorem subarch_getLsbD_six : sub.getLsbD 6 = decide (0x40 ≤ sub.toNat) := BitVec.msb_eq_decide sub

theorem subarchMeaning_eq_reserved_iff : subarchMeaning sub = .reserved ↔ 0x05 ≤ sub.toNat ∧ sub.toNat ≤ 0x3F := by
  unfold subarchMeaning
  split_ifs <;> simp <;> bv_omega

theorem subarchMeaning_eq_implementersOwn_iff : subarchMeaning sub = .implementersOwn ↔ 0x40 ≤ sub.toNat := by
  unfold subarchMeaning
  split_ifs <;> simp <;> bv_omega

end Subarchitecture

section FpsidBits
variable (c : Config)

/-- Bit 22 of FPSID is the designer bit of the Subarchitecture (R26). -/
theorem fpsidValue_getLsbD_designer : (fpsidValue c).getLsbD 22 = c.subarch.getLsbD 6 :=
  fpsidValue_getLsbD c 22

/-- With SW = 0, FPSID[23:16] is the Subarchitecture: bit 23 is SW, and the mask takes every other field out. -/
theorem fpsidValue_and_subarchMask (hSw : c.sw = 0) :
    fpsidValue c &&& 0x00FF0000#32 = c.subarch.setWidth 32 <<< 16 := by
  have hMask : ∀ k < 32, (0x00FF0000#32).getLsbD k = (decide (16 ≤ k) && decide (k < 24)) := by decide
  refine BitVec.eq_of_getLsbD_eq fun k hk => ?_
  rw [BitVec.getLsbD_and, hMask k hk, fpsidValue_getLsbD, hSw, BitVec.getLsbD_shiftLeft, BitVec.getLsbD_setWidth]
  grind

/-- Clause (a) of R33: a Subarchitecture designed by Arm is a listed one. -/
theorem wfClauseA_iff : (designerBit c.subarch || (subarchMeaning c.subarch != .reserved)) = true ↔
    (c.subarch.getLsbD 6 = false → c.subarch.toNat ≤ 0x04) := by
  simp only [designerBit, Bool.or_eq_true, bne_iff_ne, ne_eq, subarchMeaning_eq_reserved_iff, subarch_getLsbD_six,
    decide_eq_true_eq, decide_eq_false_iff_not]
  omega

/-- Clause (b) of R33. -/
theorem wfClauseB_iff : (c.subarchDesignerIsArm == !designerBit c.subarch) = true ↔
    (c.subarchDesignerIsArm = true ↔ c.subarch.getLsbD 6 = false) := by
  rw [designerBit]
  cases c.subarchDesignerIsArm <;> simp

/-- R33: FPSID_WF is its clauses (a) to (f) over the raw fields. -/
theorem fpsidWf_iff : fpsidWf c = true ↔
    (c.subarch.getLsbD 6 = false → c.subarch.toNat ≤ 0x04) ∧
    (c.subarchDesignerIsArm = true ↔ c.subarch.getLsbD 6 = false) ∧
    (c.armv8a = true → c.sw = 0) ∧
    (c.armv8a = true → c.subarch = 0x03 ∨ c.subarch = 0x04) ∧
    (c.subarch = 0x03 → c.fpscrTrapEnables = false) ∧
    (c.subarch = 0x04 → c.fpscrTrapEnables = true) := by
  rw [← wfClauseA_iff, ← wfClauseB_iff]
  simp only [fpsidWf, Bool.and_eq_true, and_assoc]
  cases c.armv8a <;> simp [imp_iff_not_or]

end FpsidBits

/-- Settles O2: clauses (c) and (d) of FPSID_WF, and the labels of the two values they leave. -/
theorem armv8PermitsOneSwAndTwoSubarchitectures : Obligations.Armv8PermitsOneSwAndTwoSubarchitectures := by
  intro c hArm hWf
  obtain ⟨-, -, hSw, hSub, -, -⟩ := (fpsidWf_iff c).mp hWf
  rw [hSw hArm]
  obtain h | h := hSub hArm
  · rw [h]; decide
  · rw [h]; decide

/-- Settles O3: the ranges of the Subarchitecture, with clauses (a) and (b) of FPSID_WF. -/
theorem reservedSubarchitecturesAreIllFormed : Obligations.ReservedSubarchitecturesAreIllFormed := by
  intro c
  refine ⟨subarchMeaning_eq_reserved_iff _, subarchMeaning_eq_implementersOwn_iff _, ?bit22, ?reserved, ?designer⟩
  case bit22 => rw [fpsidValue_getLsbD_designer, subarch_getLsbD_six, decide_eq_true_eq]
  case reserved =>
    intro hLow hHigh
    refine Bool.eq_false_iff.mpr fun hWf => ?_
    obtain ⟨hListed, -⟩ := (fpsidWf_iff c).mp hWf
    have hArm : c.subarch.getLsbD 6 = false := by rw [subarch_getLsbD_six, decide_eq_false_iff_not]; omega
    have := hListed hArm
    omega
  case designer =>
    intro hWf
    obtain ⟨-, hDesigner, -⟩ := (fpsidWf_iff c).mp hWf
    rw [hDesigner, fpsidValue_getLsbD_designer]

/-- Settles O4: the clauses; and under ARMV8A clauses (c) to (f) fix FPSID[23:16] and the trap enables. -/
theorem wellFormedConfigurationsHaveTwoShapesInArmv8 : Obligations.WellFormedConfigurationsHaveTwoShapesInArmv8 := by
  refine fun c => ⟨fpsidWf_iff c, fun hArm hWf => ?_⟩
  obtain ⟨-, -, hSw, hSub, hNull, hCommon⟩ := (fpsidWf_iff c).mp hWf
  rw [fpsidValue_and_subarchMask c (hSw hArm)]
  obtain h | h := hSub hArm
  · exact .inl ⟨by rw [h]; decide, hNull h⟩
  · exact .inr ⟨by rw [h]; decide, hCommon h⟩

end Sys2Proof.Machine

/-! PROOFS. Which verdicts the access check can give at each Exception level and what each trap needs (40_fpsid_access.md
section 4; 60_exceptions.md section 6), and when it permits (70_reset_and_hazards.md section 2). -/

namespace Sys2Proof.Machine

section Verdict
open Safety
variable {c : Config} {x : AccessContext} {f : Fault}

/-! ## Faults by Exception level -/

/-- The five faults of the check at EL1, the traps with the steps that take them. -/
theorem checkEL1_fault (h : checkEL1 c x = some f) :
    f = .undefined ∨ (f = .systemAccessTrap .el2 0x07 ∧ (Step13 c x ∨ Step14 c x)) ∨
      (f = .hypTrap 0x08 ∧ ¬Step12 c x ∧ (Step15 c x ∨ Step17 c x)) ∨
      (f = .systemAccessTrap .el2 0x08 ∧ Step16 c x) ∨
      (f = .systemAccessTrap .el3 0x07 ∧ Step18 c x ∧ x.el3SddUndef = false) := by
  have hCases := checkEL1_cases c x
  simp only [h, Option.some.injEq, reduceCtorEq, false_and, or_false] at hCases
  exact hCases.imp And.left (Or.imp_left fun ⟨hf, _, hStep⟩ => ⟨hf, hStep⟩)

/-- The three faults of the check at EL2, the traps with the step that takes them. -/
theorem checkEL2_fault (h : checkEL2 c x = some f) :
    f = .undefined ∨ (f = .hypTrap 0x00 ∧ Step22 c x) ∨
      (f = .systemAccessTrap .el3 0x07 ∧ Step18 c x ∧ x.el3SddUndef = false) := by
  have hCases := checkEL2_cases c x
  simp only [h, Option.some.injEq, reduceCtorEq, false_and, or_false] at hCases
  exact hCases.imp_left And.left

/-- The one fault of the check at EL3. -/
theorem checkEL3_fault (h : checkEL3 x = some f) : f = .undefined := by
  rw [checkEL3_eq_steps] at h
  split at h <;> cases h
  rfl

/-- Every fault of the check: UNDEFINED, or a trap from EL1 or EL2 with the steps that take it. -/
theorem accessCheck_fault (h : accessCheck c x = some f) :
    f = .undefined ∨
    (x.el = .el1 ∧ ((f = .systemAccessTrap .el2 0x07 ∧ (Step13 c x ∨ Step14 c x)) ∨
      (f = .hypTrap 0x08 ∧ ¬Step12 c x ∧ (Step15 c x ∨ Step17 c x)) ∨
      (f = .systemAccessTrap .el2 0x08 ∧ Step16 c x) ∨
      (f = .systemAccessTrap .el3 0x07 ∧ Step18 c x ∧ x.el3SddUndef = false))) ∨
    (x.el = .el2 ∧ ((f = .hypTrap 0x00 ∧ Step22 c x) ∨
      (f = .systemAccessTrap .el3 0x07 ∧ Step18 c x ∧ x.el3SddUndef = false))) := by
  cases hFeat : c.featAA32EL1 with
  | false => exact .inl (Option.some.inj (h.symm.trans (accessCheck_absent hFeat)))
  | true =>
    cases hEl : x.el with
    | el0 => exact .inl (Option.some.inj (h.symm.trans (accessCheck_el0 hEl)))
    | el1 => exact (checkEL1_fault (accessCheck_el1 hFeat hEl ▸ h)).imp_right fun hTrap => .inl ⟨rfl, hTrap⟩
    | el2 => exact (checkEL2_fault (accessCheck_el2 hFeat hEl ▸ h)).imp_right fun hTrap => .inr ⟨rfl, hTrap⟩
    | el3 => exact .inl (checkEL3_fault (accessCheck_el3 hFeat hEl ▸ h))

/-- At EL2 the verdict is the feature's or CheckEL2's. -/
theorem accessCheck_el2_eq_ite (hEl : x.el = .el2) :
    accessCheck c x = if c.featAA32EL1 then checkEL2 c x else some .undefined := by
  cases hFeat : c.featAA32EL1 with
  | false => exact accessCheck_absent hFeat
  | true => exact accessCheck_el2 hFeat hEl

/-! ## Permit by Exception level -/

/-- The pattern 'x0' leaves bit 0 of CPTR_EL2.FPEN clear. -/
theorem fpen_x0_iff : (x.cptrEl2Fpen = 0b00#2 ∨ x.cptrEl2Fpen = 0b10#2) ↔ x.cptrEl2Fpen.getLsbD 0 = false := by
  rw [← fpenTraps_iff, fpenTraps, Bool.not_eq_true']

theorem not_step11_of_not_step18 (h : ¬Step18 c x) : ¬Step11 c x :=
  mt (fun h11 => ((step11_iff_step18_and_priority c x).mp h11).1) h

theorem checkEL1_eq_none_iff : checkEL1 c x = none ↔ ¬Step12 c x ∧ ¬Step13 c x ∧ ¬Step14 c x ∧ ¬Step15 c x ∧
    ¬Step16 c x ∧ ¬Step17 c x ∧ ¬Step18 c x := by
  constructor
  · intro h
    have hCases := checkEL1_cases c x
    simpa only [h, reduceCtorEq, false_and, false_or, true_and] using hCases
  · rintro ⟨n2, n3, n4, n5, n6, n7, n8⟩
    rw [checkEL1_eq_steps, if_neg (not_step11_of_not_step18 n8), if_neg n2, if_neg n3, if_neg n4, if_neg n5, if_neg n6,
      if_neg n7, if_neg n8]

theorem checkEL2_eq_none_iff : checkEL2 c x = none ↔ ¬Step22 c x ∧ ¬Step18 c x := by
  constructor
  · intro h
    have hCases := checkEL2_cases c x
    simpa only [h, reduceCtorEq, false_and, false_or, true_and] using hCases
  · rintro ⟨n2, n3⟩
    rw [checkEL2_eq_steps, if_neg (not_step11_of_not_step18 n3), if_neg n2, if_neg n3]

theorem checkEL3_eq_none_iff : checkEL3 x = none ↔ x.cpacrCp10 ≠ 0b00#2 := by
  simp [checkEL3_eq_steps]

/-- R131 items 3 to 7 at EL1: with EL2 neither enabled nor in host, or its controls clear, the check permits. -/
theorem checkEL1_permits (hCp10 : x.cpacrCp10 ≠ 0b00#2) (hNsacr : ¬NsacrDenies c x) (hEl3 : ¬Step18 c x)
    (hEl2 : (x.el2Enabled = false ∧ x.el2InHost = false) ∨
      (¬(x.el2Aarch32 = false ∧ x.el2InHost = false ∧ x.cptrEl2Tfp = 1) ∧
        ¬(x.el2Aarch32 = false ∧ x.el2InHost = true ∧ x.cptrEl2Fpen.getLsbD 0 = false) ∧
        ¬(x.el2Aarch32 = true ∧ x.hcptrTcp10 = 1) ∧
        ¬(x.el2Aarch32 = false ∧ x.hcrEl2Tid0 = 1) ∧ ¬(x.el2Aarch32 = true ∧ x.hcrTid0 = 1))) :
    checkEL1 c x = none := by
  have n2 : ¬Step12 c x := not_or.mpr ⟨hNsacr, hCp10⟩
  rw [checkEL1_eq_none_iff, Step14, fpen_x0_iff, step15_iff_of_not_step12 n2]
  obtain ⟨hDisabled, hHost⟩ | ⟨n3, n4, n5, n6, n7⟩ := hEl2
  · simp [n2, hDisabled, hHost, hEl3]
  · exact ⟨n2, fun ⟨_, _, h64, hTfp⟩ => n3 ⟨h64, hTfp⟩, fun ⟨hHost, _, h64, hFpen⟩ => n4 ⟨h64, hHost, hFpen⟩,
      fun ⟨_, _, h5⟩ => n5 h5, fun ⟨_, _, h6⟩ => n6 h6, fun ⟨_, _, h7⟩ => n7 h7, hEl3⟩

end Verdict

/-- Settles O9: at EL2 the verdict is the feature's or CheckEL2's, and neither reads a field that is varied. -/
theorem checkAtEl2IgnoresEl1Controls : Obligations.CheckAtEl2IgnoresEl1Controls := by
  intro c x hEl cpacr fpen tfp tid0 el2Tid0 host aarch32 f32 f64
  rw [accessCheck_el2_eq_ite, accessCheck_el2_eq_ite hEl]
  · rfl
  · exact hEl

/-- Settles O11: read off the inversion of the check, fault by fault. -/
theorem faultCodesByExceptionLevel : Obligations.FaultCodesByExceptionLevel := by
  intro c x f h
  obtain rfl | ⟨hEl, ⟨rfl, -⟩ | ⟨rfl, -⟩ | ⟨rfl, -⟩ | ⟨rfl, -⟩⟩ | ⟨hEl, ⟨rfl, -⟩ | ⟨rfl, -⟩⟩ := accessCheck_fault h
  case inl => simp [Safety.sixFaults]
  all_goals simp [hEl, Safety.sixFaults]

/-- Settles O12: the step behind each trap, with step 1.2 excluded where step 1.5 names NSACR. -/
theorem everyTrapHasItsControlSet : Obligations.EveryTrapHasItsControlSet := by
  intro c x
  refine ⟨fun h => ?el2Tfp, fun h => ?el2Tid0, fun h => ?hyp08, fun h => ?hyp00, fun h => ?el3⟩
  all_goals
    have hFault := accessCheck_fault h
    simp only [reduceCtorEq, Fault.systemAccessTrap.injEq, Fault.hypTrap.injEq, Nat.reduceEqDiff, false_and,
      and_false, and_true, true_and, false_or, or_false] at hFault
  case el2Tfp =>
    obtain ⟨-, ⟨hEnabled, h64, hAarch, hHost, hTfp⟩ | ⟨hHost, h64, hAarch, hFpen⟩⟩ := hFault
    · exact ⟨h64, hAarch, .inl ⟨hHost, hEnabled, hTfp⟩⟩
    · exact ⟨h64, hAarch, .inr ⟨hHost, fpen_x0_iff.mp hFpen⟩⟩
  case el2Tid0 => exact hFault.2
  case hyp08 =>
    obtain ⟨-, n2, h5 | ⟨hEnabled, h32, hAarch, hTid0⟩⟩ := hFault
    · obtain ⟨hEnabled, h32, hAarch, hTcp10⟩ := (step15_iff_of_not_step12 n2).mp h5
      exact ⟨hEnabled, h32, hAarch, .inl hTcp10⟩
    · exact ⟨hEnabled, h32, hAarch, .inr hTid0⟩
  case hyp00 =>
    obtain ⟨-, hEnabled, hControl⟩ := hFault
    exact ⟨hEnabled, hControl.symm⟩
  case el3 =>
    obtain ⟨-, ⟨h3, h64, hAarch, hTfp⟩, hTrap⟩ | ⟨-, ⟨h3, h64, hAarch, hTfp⟩, hTrap⟩ := hFault
    all_goals exact ⟨h3, h64, hAarch, hTfp, hTrap⟩

/-- Settles O13: every step at EL1 is excluded; at EL2 the two that can stand are named. -/
theorem permitConditionsAtEl1AndEl2 : Obligations.PermitConditionsAtEl1AndEl2 := by
  refine fun c x => ⟨fun hEl hFeat hCp10 hDisabled hHost hNsacr hEl3 => ?el1, fun hEl => ?el2⟩
  case el1 =>
    rw [accessCheck_el1 hFeat hEl]
    exact checkEL1_permits hCp10 hNsacr hEl3 (.inl ⟨hDisabled, hHost⟩)
  case el2 =>
    rw [accessCheck_el2_eq_ite hEl]
    cases c.featAA32EL1 <;> simp [checkEL2_eq_none_iff]

end Sys2Proof.Machine

/-! PROOFS. What the four instructions do (40_fpsid_access.md R80, R85 to R87): one equation of exec for each way an access
can go, the inversion of each kind of outcome, and the frame. -/

namespace Sys2Proof.Machine

section Exec
open Safety
variable {i : Instr} {s t u : State} {f : Fault} {r : Refusal}

/-! ## The well-formed instructions -/

/-- What an A32 form, read or write, needs to be well-formed. -/
theorem wellFormed_a32 {cond : BitVec 4} {rt : Fin 16} (hCond : cond ≠ 0b1111#4) (hRt : rt ≠ 15) :
    (admittedCondition cond && admittedRegister rt) = true :=
  Bool.and_eq_true_iff.mpr ⟨bne_iff_ne.mpr hCond, bne_iff_ne.mpr hRt⟩

/-- What a T32 form, read or write, needs to be well-formed. -/
theorem wellFormed_t32 {rt : Fin 16} (hRt : rt ≠ 15) : admittedRegister rt = true := bne_iff_ne.mpr hRt

/-! ## The permitted effect -/

theorem permittedEffect_read {cond : BitVec 4} {rt : Fin 16} (h : i = .vmrsA32 cond rt ∨ i = .vmrsT32 rt) (s : State) :
    permittedEffect i s = s.writeX rt (fpsidValue s.cfg) := by
  obtain rfl | rfl := h <;> rfl

theorem permittedEffect_write {cond : BitVec 4} {rt : Fin 16} (h : i = .vmsrA32 cond rt ∨ i = .vmsrT32 rt) (s : State) :
    permittedEffect i s = s := by
  obtain rfl | rfl := h <;> rfl

theorem permittedEffect_frame (i : Instr) (s : State) :
    (permittedEffect i s).pc = s.pc ∧ (permittedEffect i s).mem = s.mem ∧ (permittedEffect i s).iset = s.iset ∧
      (permittedEffect i s).ctx = s.ctx ∧ (permittedEffect i s).pending = s.pending := by
  cases i <;> exact ⟨rfl, rfl, rfl, rfl, rfl⟩

theorem permittedEffect_draws (i : Instr) (s : State) : (permittedEffect i s).draws = s.draws := by
  cases i <;> rfl

theorem State.readX_writeX_cases (s : State) (k j : Fin 16) (v : Word) :
    (s.writeX k v).readX j = s.readX j ∨ (j = k ∧ (s.writeX k v).readX j = v) := by
  by_cases hj : j = k
  · subst hj
    exact .inr ⟨rfl, s.readX_writeX_self j v⟩
  · exact .inl (s.readX_writeX_other k j v hj)

theorem permittedEffect_readX (i : Instr) (s : State) (j : Fin 16) :
    (permittedEffect i s).readX j = s.readX j ∨ (j = i.rt ∧ (permittedEffect i s).readX j = fpsidValue s.cfg) := by
  cases i with
  | vmrsA32 cond rt | vmrsT32 rt => exact State.readX_writeX_cases s rt j (fpsidValue s.cfg)
  | vmsrA32 cond rt | vmsrT32 rt => exact .inl rfl

/-! ## One equation for each way an access can go -/

/-- The first requirement of an access that fails, if one does (R32, R33, R66, R68). -/
def failedRequirement (i : Instr) (c : Config) : Option Refusal :=
  if !i.wellFormed then some .illFormedInstruction
  else if !c.hasAdvSimdFp then some .advSimdFpAbsent
  else if !fpsidWf c then some .illFormedConfiguration
  else none

theorem failedRequirement_illFormed {c : Config} (hi : i.wellFormed = false) :
    failedRequirement i c = some .illFormedInstruction := by simp [failedRequirement, hi]

theorem failedRequirement_advSimdFp {c : Config} (hi : i.wellFormed = true) (hFp : c.hasAdvSimdFp = false) :
    failedRequirement i c = some .advSimdFpAbsent := by simp [failedRequirement, hi, hFp]

theorem failedRequirement_fpsidWf {c : Config} (hi : i.wellFormed = true) (hFp : c.hasAdvSimdFp = true)
    (hWf : fpsidWf c = false) : failedRequirement i c = some .illFormedConfiguration := by
  simp [failedRequirement, hi, hFp, hWf]

theorem failedRequirement_eq_none_iff {c : Config} :
    failedRequirement i c = none ↔ i.wellFormed = true ∧ ConfigAdmitted c := by
  unfold failedRequirement
  split_ifs <;> simp_all [ConfigAdmitted]

/-- An access a requirement of which fails is refused for it. -/
theorem exec_refused (h : failedRequirement i s.cfg = some r) : exec i s = .refused r := by
  rw [exec_eq_access, access]
  unfold failedRequirement at h
  split_ifs at h with hi hFp hWf
  · rw [if_pos hi, Option.some.inj h]
  · rw [if_neg hi, if_pos hFp, Option.some.inj h]
  · rw [if_neg hi, if_neg hFp, if_pos hWf, Option.some.inj h]

section Admitted
variable (hi : i.wellFormed = true) (hCfg : ConfigAdmitted s.cfg)
include hi hCfg

theorem exec_condPassed (hCond : s.ctx.condPassed = true) : exec i s = attempt (permittedEffect i) s := by
  rw [exec_eq_access, access_admitted _ hi hCfg, conditionHolds_eq, if_pos hCond]

theorem exec_condFailed (hCond : s.ctx.condPassed = false) : exec i s = conditionFailed s := by
  rw [exec_eq_access, access_admitted _ hi hCfg, conditionHolds_eq, if_neg (by simp [hCond])]

/-- R85, R86, the Permit branch. -/
theorem exec_permit (hCond : s.ctx.condPassed = true) (hCheck : accessCheck s.cfg s.ctx = none) :
    exec i s = .next (permittedEffect i s) :=
  (exec_condPassed hi hCfg hCond).trans (attempt_permit _ hCheck)

/-- R85, R86: `f -> raise f`. -/
theorem exec_fault (hCond : s.ctx.condPassed = true) (hCheck : accessCheck s.cfg s.ctx = some f) :
    exec i s = .fault f :=
  (exec_condPassed hi hCfg hCond).trans (attempt_fault _ hCheck)

/-- R87 (i), under a check that permits. -/
theorem exec_condFailed_permit (hCond : s.ctx.condPassed = false) (hCheck : accessCheck s.cfg s.ctx = none) :
    exec i s = .next s :=
  (exec_condFailed hi hCfg hCond).trans (conditionFailed_permit hCheck)

/-- R87 (i) and (ii), under a check that faults. -/
theorem exec_condFailed_fault (hCond : s.ctx.condPassed = false) (hCheck : accessCheck s.cfg s.ctx = some f) :
    exec i s = if s.failedConditionFaults then .fault f else .next s.draw :=
  (exec_condFailed hi hCfg hCond).trans (conditionFailed_fault hCheck)

end Admitted

/-! ## Inversion -/

/-- Every next state of an instruction, with what led to it. -/
theorem exec_next (h : exec i s = .next t) : (i.wellFormed = true ∧ ConfigAdmitted s.cfg) ∧
    ((s.ctx.condPassed = true ∧ accessCheck s.cfg s.ctx = none ∧ t = permittedEffect i s) ∨
      (s.ctx.condPassed = false ∧ accessCheck s.cfg s.ctx = none ∧ t = s) ∨
      (s.ctx.condPassed = false ∧ (∃ f, accessCheck s.cfg s.ctx = some f) ∧ s.failedConditionFaults = false ∧
        t = s.draw)) := by
  rw [exec_eq_access] at h
  exact access_next h

/-- With the condition passed, every next state is the permitted effect. -/
theorem exec_next_condPassed (h : exec i s = .next t) (hCond : s.ctx.condPassed = true) :
    i.wellFormed = true ∧ ConfigAdmitted s.cfg ∧ accessCheck s.cfg s.ctx = none ∧ t = permittedEffect i s := by
  obtain ⟨⟨hi, hCfg⟩, ⟨-, hCheck, rfl⟩ | ⟨hFailed, -⟩ | ⟨hFailed, -⟩⟩ := exec_next h
  · exact ⟨hi, hCfg, hCheck, rfl⟩
  · simp [hCond] at hFailed
  · simp [hCond] at hFailed

/-- With `exec_next_cfg`: no instruction changes more than the registers and the counter of free choices. -/
theorem exec_next_frame (h : exec i s = .next t) :
    t.pc = s.pc ∧ t.mem = s.mem ∧ t.iset = s.iset ∧ t.ctx = s.ctx ∧ t.pending = s.pending := by
  obtain ⟨-, ⟨-, -, rfl⟩ | ⟨-, -, rfl⟩ | ⟨-, -, -, rfl⟩⟩ := exec_next h
  · exact permittedEffect_frame i s
  · exact ⟨rfl, rfl, rfl, rfl, rfl⟩
  · exact ⟨rfl, rfl, rfl, rfl, rfl⟩

/-- Every register holds what it held, but for the instruction's own, which may hold FPSID. -/
theorem exec_next_readX (h : exec i s = .next t) (j : Fin 16) :
    t.readX j = s.readX j ∨ (j = i.rt ∧ t.readX j = fpsidValue s.cfg) := by
  obtain ⟨-, ⟨-, -, rfl⟩ | ⟨-, -, rfl⟩ | ⟨-, -, -, rfl⟩⟩ := exec_next h
  · exact permittedEffect_readX i s j
  · exact .inl rfl
  · exact .inl rfl

/-! ## The outcome up to the effect of completion -/

/-- An outcome without the next state. -/
def outcomeKind : Host.Outcome State Fault Refusal → Host.Outcome Unit Fault Refusal
  | .next _ => .next ()
  | .fault f => .fault f
  | .refused r => .refused r

/-- How an access goes, by the requirements, the check, the condition and the free choice of a failed condition. -/
def accessKind (i : Instr) (s : State) : Host.Outcome Unit Fault Refusal :=
  match failedRequirement i s.cfg, accessCheck s.cfg s.ctx with
  | some r, _ => .refused r
  | none, none => .next ()
  | none, some f => if s.ctx.condPassed || s.failedConditionFaults then .fault f else .next ()

theorem outcomeKind_exec (i : Instr) (s : State) : outcomeKind (exec i s) = accessKind i s := by
  unfold accessKind
  cases hReq : failedRequirement i s.cfg with
  | some r => rw [exec_refused hReq]; rfl
  | none =>
    obtain ⟨hi, hCfg⟩ := failedRequirement_eq_none_iff.mp hReq
    cases hCheck : accessCheck s.cfg s.ctx <;> cases hCond : s.ctx.condPassed
    · rw [exec_condFailed_permit hi hCfg hCond hCheck]; rfl
    · rw [exec_permit hi hCfg hCond hCheck]; rfl
    · rw [exec_condFailed_fault hi hCfg hCond hCheck]
      cases s.failedConditionFaults <;> rfl
    · rw [exec_fault hi hCfg hCond hCheck]; rfl

/-- The outcome up to the effect is decided by whether the term is well-formed, the configuration, the context and, with
the condition failed, the free choice. -/
theorem outcomeKind_exec_congr {j : Instr} (hi : i.wellFormed = j.wellFormed) (hCfg : s.cfg = u.cfg)
    (hCtx : s.ctx = u.ctx) (hChoice : s.ctx.condPassed = true ∨ s.failedConditionFaults = u.failedConditionFaults) :
    outcomeKind (exec i s) = outcomeKind (exec j u) := by
  have hPast : (s.ctx.condPassed || s.failedConditionFaults) = (s.ctx.condPassed || u.failedConditionFaults) := by
    obtain h | h := hChoice
    · rw [h, Bool.true_or, Bool.true_or]
    · rw [h]
  rw [outcomeKind_exec, outcomeKind_exec, accessKind, accessKind, failedRequirement, failedRequirement, hi, hPast, hCfg,
    hCtx]

section SameKind
variable {o p : Host.Outcome State Fault Refusal} (h : outcomeKind o = outcomeKind p)
include h

theorem next_of_outcomeKind_eq (ho : ∃ t, o = .next t) : ∃ v, p = .next v := by
  obtain ⟨t, rfl⟩ := ho
  cases p <;> cases h
  exact ⟨_, rfl⟩

theorem fault_of_outcomeKind_eq (ho : o = .fault f) : p = .fault f := by
  subst ho
  cases p <;> cases h
  rfl

theorem refused_of_outcomeKind_eq (ho : o = .refused r) : p = .refused r := by
  subst ho
  cases p <;> cases h
  rfl

/-- Two outcomes of one kind: both complete, or both fault alike, or both are refused alike. -/
theorem outcomes_agree :
    ((∃ t, o = .next t) ↔ ∃ v, p = .next v) ∧ (∀ f, o = .fault f ↔ p = .fault f) ∧
      (∀ r, o = .refused r ↔ p = .refused r) :=
  ⟨⟨next_of_outcomeKind_eq h, next_of_outcomeKind_eq h.symm⟩,
    fun _ => ⟨fault_of_outcomeKind_eq h, fault_of_outcomeKind_eq h.symm⟩,
    fun _ => ⟨refused_of_outcomeKind_eq h, refused_of_outcomeKind_eq h.symm⟩⟩

end SameKind

end Exec

/-- Settles O14: the Permit branch of the read. -/
theorem vmrsPermittedCopiesFpsidToRt : Obligations.VmrsPermittedCopiesFpsidToRt := fun _ _ _ hFp hWf hCheck hRt hCond =>
  ⟨fun hField => exec_permit (wellFormed_a32 hField hRt) ⟨hFp, hWf⟩ hCond hCheck,
    exec_permit (wellFormed_t32 hRt) ⟨hFp, hWf⟩ hCond hCheck⟩

/-- Settles O15: the Permit branch of the write. -/
theorem vmsrPermittedWritesNothing : Obligations.VmsrPermittedWritesNothing := fun _ _ _ hFp hWf hCheck hRt hCond =>
  ⟨fun hField => exec_permit (wellFormed_a32 hField hRt) ⟨hFp, hWf⟩ hCond hCheck,
    exec_permit (wellFormed_t32 hRt) ⟨hFp, hWf⟩ hCond hCheck⟩

/-- Settles O16: the boot conditions exclude every step of the check at each Exception level but EL0. -/
theorem bootConditionsSufficeForAccess : Obligations.BootConditionsSufficeForAccess := by
  rintro s cond rt hRt hField hCond hWf ⟨hFeat, hFp⟩ hEl0 hCp10 hNsacr hEl2 hTcp10 hEl3
  have hCheck : accessCheck s.cfg s.ctx = none := by
    cases hEl : s.ctx.el with
    | el0 => exact absurd hEl hEl0
    | el1 =>
      rw [accessCheck_el1 hFeat hEl]
      refine checkEL1_permits (hCp10 (.inl hEl)) (fun ⟨h32, hAarch, hNs, hDenied⟩ => ?_)
        (fun ⟨hHave, h64, hAarch, hTfp⟩ => ?_) (hEl2 hEl)
      · simp [hNsacr (.inl hEl) h32 hAarch hNs] at hDenied
      · simp [hEl3 (.inl hEl) hHave h64 hAarch] at hTfp
    | el2 =>
      rw [accessCheck_el2 hFeat hEl, checkEL2_eq_none_iff]
      refine ⟨fun ⟨hEnabled, hControl⟩ => ?_, fun ⟨hHave, h64, hAarch, hTfp⟩ => ?_⟩
      · obtain ⟨h32, hAarch, hNs, hDenied⟩ | hSet := hControl
        · simp [hNsacr (.inr hEl) h32 hAarch hNs] at hDenied
        · simp [hTcp10 hEl hEnabled] at hSet
      · simp [hEl3 (.inr hEl) hHave h64 hAarch] at hTfp
    | el3 =>
      rw [accessCheck_el3 hFeat hEl, checkEL3_eq_none_iff]
      exact hCp10 (.inr hEl)
  obtain ⟨hReadA32, hReadT32⟩ := vmrsPermittedCopiesFpsidToRt s cond rt hFp hWf hCheck hRt hCond
  obtain ⟨hWriteA32, hWriteT32⟩ := vmsrPermittedWritesNothing s cond rt hFp hWf hCheck hRt hCond
  exact ⟨hReadT32, hReadA32 hField, hWriteT32, hWriteA32 hField⟩

/-- Settles O17: the fault branch of all four forms. -/
theorem accessRaisesTheFaultOfTheCheck : Obligations.AccessRaisesTheFaultOfTheCheck :=
  fun _ _ _ _ hFp hWf hCheck hRt hCond =>
  ⟨fun hField => ⟨exec_fault (wellFormed_a32 hField hRt) ⟨hFp, hWf⟩ hCond hCheck,
      exec_fault (wellFormed_a32 hField hRt) ⟨hFp, hWf⟩ hCond hCheck⟩,
    exec_fault (wellFormed_t32 hRt) ⟨hFp, hWf⟩ hCond hCheck, exec_fault (wellFormed_t32 hRt) ⟨hFp, hWf⟩ hCond hCheck⟩

/-- Settles O18: by the verdict of the check, and in its Permit branch by the instruction. -/
theorem accessHasOneOfSevenOutcomes : Obligations.AccessHasOneOfSevenOutcomes := by
  intro s i hi hFp hWf hCond
  cases hCheck : accessCheck s.cfg s.ctx with
  | none =>
    refine .inl ⟨permittedEffect i s, exec_permit hi ⟨hFp, hWf⟩ hCond hCheck, rfl, ?_⟩
    cases i with
    | vmrsA32 cond rt => exact .inl ⟨cond, rt, rfl, rfl⟩
    | vmrsT32 rt => exact .inr (.inl ⟨rt, rfl, rfl⟩)
    | vmsrA32 cond rt => exact .inr (.inr (.inl ⟨cond, rt, rfl, rfl⟩))
    | vmsrT32 rt => exact .inr (.inr (.inr ⟨rt, rfl, rfl⟩))
  | some f =>
    obtain ⟨hSix, -⟩ := faultCodesByExceptionLevel s.cfg s.ctx f hCheck
    exact .inr ⟨f, exec_fault hi ⟨hFp, hWf⟩ hCond hCheck, rfl, hSix⟩

/-- Settles O19: under a check that faults, either value of the free choice. -/
theorem failedConditionIsNoOpOrTheFault : Obligations.FailedConditionIsNoOpOrTheFault := by
  refine fun s i hi hFp hWf hCond => ⟨exec_condFailed_permit hi ⟨hFp, hWf⟩ hCond, fun f hCheck => ?_⟩
  rw [exec_condFailed_fault hi ⟨hFp, hWf⟩ hCond hCheck]
  cases s.failedConditionFaults
  · exact .inl rfl
  · exact .inr rfl

/-- Settles O22: the frame of a next state, the one register that can change, and the three ways to complete. -/
theorem accessFrame : Obligations.AccessFrame := by
  intro s t i h
  have hCfg := exec_next_cfg h
  obtain ⟨hPc, hMem, hIset, hCtx, hPending⟩ := exec_next_frame h
  refine ⟨hCfg, congrArg fpsidValue hCfg, hPc, hIset, hCtx, hPending, fun _ => congrArg (Memory.lookup · _) hMem, hMem,
    fun j hj => (exec_next_readX h j).resolve_right fun hOwn => hj hOwn.1, fun cond rt hWrite => ?x,
    fun hCond => ?passed, ?draws⟩
  case x =>
    obtain ⟨-, ⟨-, -, rfl⟩ | ⟨-, -, rfl⟩ | ⟨-, -, -, rfl⟩⟩ := exec_next h
    · rw [permittedEffect_write hWrite]
    · rfl
    · rfl
  case passed =>
    obtain ⟨-, -, -, rfl⟩ := exec_next_condPassed h hCond
    exact permittedEffect_draws i s
  case draws =>
    obtain ⟨-, ⟨-, -, rfl⟩ | ⟨-, -, rfl⟩ | ⟨-, -, -, rfl⟩⟩ := exec_next h
    · exact .inl (permittedEffect_draws i s)
    · exact .inl rfl
    · exact .inr rfl

/-- Settles O23: at one state a read and a write with the same condition field are equally well-formed. -/
theorem readAndWriteHaveTheSameOutcome : Obligations.ReadAndWriteHaveTheSameOutcome := by
  intro s cond rt ru hRt hRu
  have hRegister : admittedRegister rt = admittedRegister ru := (wellFormed_t32 hRt).trans (wellFormed_t32 hRu).symm
  have hA32 : outcomeKind (exec (.vmrsA32 cond rt) s) = outcomeKind (exec (.vmsrA32 cond ru) s) :=
    outcomeKind_exec_congr (congrArg (admittedCondition cond && ·) hRegister) rfl rfl (.inr rfl)
  have hT32 : outcomeKind (exec (.vmrsT32 rt) s) = outcomeKind (exec (.vmsrT32 ru) s) :=
    outcomeKind_exec_congr hRegister rfl rfl (.inr rfl)
  obtain ⟨hNext, hFault, hRefused⟩ := outcomes_agree hA32
  exact ⟨hNext, hFault, hRefused, outcomes_agree hT32⟩

/-- Settles O24: with the condition passed the outcome up to its effect takes no free choice. -/
theorem outcomeIsDecidedByConfigurationAndContext : Obligations.OutcomeIsDecidedByConfigurationAndContext := by
  intro s u i hCfg hCtx hCond
  have hKind : outcomeKind (exec i s) = outcomeKind (exec i u) := outcomeKind_exec_congr rfl hCfg hCtx (.inl hCond)
  refine ⟨fun t ht => ?_, fun _ => fault_of_outcomeKind_eq hKind, fun _ => refused_of_outcomeKind_eq hKind⟩
  obtain ⟨v, hv⟩ := next_of_outcomeKind_eq hKind ⟨t, ht⟩
  obtain ⟨-, -, -, rfl⟩ := exec_next_condPassed ht hCond
  obtain ⟨-, -, -, rfl⟩ := exec_next_condPassed hv (hCtx ▸ hCond)
  exact ⟨_, hv, permittedEffect_draws i s, permittedEffect_draws i u⟩

/-- Settles O25: each way a write completes is there with any register file, and keeps it. -/
theorem vmsrDoesNotReadTheRegisters : Obligations.VmsrDoesNotReadTheRegisters := by
  intro s y cond rt i hWrite
  have hKind : outcomeKind (exec i s) = outcomeKind (exec i { s with x := y }) :=
    outcomeKind_exec_congr rfl rfl rfl (.inr rfl)
  refine ⟨fun t h => ?_, fun _ => fault_of_outcomeKind_eq hKind, fun _ => refused_of_outcomeKind_eq hKind⟩
  obtain ⟨⟨hi, hCfg⟩, ⟨hCond, hCheck, rfl⟩ | ⟨hCond, hCheck, rfl⟩ | ⟨hCond, ⟨f, hCheck⟩, hChoice, rfl⟩⟩ := exec_next h
  · rw [permittedEffect_write hWrite]
    exact (exec_permit (s := { s with x := y }) hi hCfg hCond hCheck).trans
      (congrArg _ (permittedEffect_write hWrite _))
  · exact exec_condFailed_permit (s := { t with x := y }) hi hCfg hCond hCheck
  · exact (exec_condFailed_fault (s := { s with x := y }) hi hCfg hCond hCheck).trans
      (if_neg (Bool.eq_false_iff.mp hChoice))

/-- Settles O26: the register read back after the Permit branch is FPSID, whatever it held. -/
theorem vmrsCopiesBitForBit : Obligations.VmrsCopiesBitForBit := by
  intro s old rt i cond hRead hi hFp hWf hCheck hCond
  refine ⟨_, exec_permit (s := s.writeX rt old) hi ⟨hFp, hWf⟩ hCond hCheck, fun k => ?_⟩
  rw [permittedEffect_read hRead.symm, State.readX_writeX_self, State.writeX_cfg]

/-- Settles O27: writing FPSID to x[t] a second time changes nothing. -/
theorem readingTwiceIsReadingOnce : Obligations.ReadingTwiceIsReadingOnce := by
  intro s t i cond rt hRead hCond h
  obtain ⟨hi, hCfg, hCheck, rfl⟩ := exec_next_condPassed h hCond
  rw [permittedEffect_read hRead]
  refine (exec_permit (s := s.writeX rt (fpsidValue s.cfg)) hi hCfg hCond hCheck).trans ?_
  rw [permittedEffect_read hRead, State.writeX_cfg, State.writeX_writeX]

/-- Settles O28: a completed write leaves the state in which the read's check permits too. -/
theorem readAfterWriteReturnsFpsid : Obligations.ReadAfterWriteReturnsFpsid := by
  refine fun s t ct cu rt ru hCond hRu => ⟨fun h hField => ?a32, fun h => ?t32⟩
  case a32 =>
    obtain ⟨-, hCfg, hCheck, rfl⟩ := exec_next_condPassed h hCond
    exact exec_permit (wellFormed_a32 hField hRu) hCfg hCond hCheck
  case t32 =>
    obtain ⟨-, hCfg, hCheck, rfl⟩ := exec_next_condPassed h hCond
    exact exec_permit (wellFormed_t32 hRu) hCfg hCond hCheck

/-- Settles O20: the first requirement that fails is the feature's, and then FPSID_WF. -/
theorem accessIsRefusedWithoutAdmittedConfiguration : Obligations.AccessIsRefusedWithoutAdmittedConfiguration :=
  fun _ _ hi => ⟨fun hFp => exec_refused (failedRequirement_advSimdFp hi hFp),
    fun hFp hWf => exec_refused (failedRequirement_fpsidWf hi hFp hWf)⟩

/-- Settles O21: the first requirement is that the term is well-formed. -/
theorem termsOutsideTheSubsetAreRefused : Obligations.TermsOutsideTheSubsetAreRefused := by
  intro s cond rt
  have hRegister : (admittedCondition cond && admittedRegister 15) = false := Bool.and_false _
  exact ⟨exec_refused (failedRequirement_illFormed hRegister), exec_refused (failedRequirement_illFormed rfl),
    exec_refused (failedRequirement_illFormed hRegister), exec_refused (failedRequirement_illFormed rfl),
    exec_refused (failedRequirement_illFormed rfl), exec_refused (failedRequirement_illFormed rfl)⟩

end Sys2Proof.Machine

/-! PROOFS. The step and the run (20_memory.md R53; 10_state.md R39; 40_fpsid_access.md R91): how a step goes by what the
decoder says of the presented word, what it keeps, and what every run keeps. -/

namespace Sys2Proof.Machine

section Step
variable {s t : State} {w : Word} {i : Instr} {f : Fault} {r : Refusal} {why : Rejection}

/-! ## One step -/

theorem step_noWord (hw : s.mem.lookup s.pc.toNat = none) : step s = .refused .noInstruction := by
  simp [step, State.presentedWord, hw]

theorem step_undecodable (hw : s.mem.lookup s.pc.toNat = some w)
    (hi : decodeWith s.cfg.encodings s.iset w = .error why) : step s = .refused (.undecodable why) := by
  simp [step, State.presentedWord, hw, hi]

section Decoded
variable (hw : s.mem.lookup s.pc.toNat = some w) (hi : decodeWith s.cfg.encodings s.iset w = .ok i)
include hw hi

theorem step_of_exec_next (h : exec i s = .next t) : step s = .next t.advance := by
  rw [step_decoded hw hi, h, afterExec]

theorem step_of_exec_fault (h : exec i s = .fault f) : step s = .fault f := by
  rw [step_decoded hw hi, h, afterExec]

theorem step_of_exec_refused (h : exec i s = .refused r) : step s = .refused r := by
  rw [step_decoded hw hi, h, afterExec]

end Decoded

theorem advance_of_pending_nil (h : t.pending = []) : t.advance = { t with pc := t.pc + 4 } := by
  rw [State.advance, State.presentNext_nil t h]

theorem advance_of_pending_cons {p : Presented} {ps : List Presented} (h : t.pending = p :: ps) :
    t.advance = { t with pc := t.pc + 4, iset := p.iset, ctx := p.ctx, pending := ps } := by
  rw [State.advance, State.presentNext_cons t p ps h]

theorem decodeTableWord_some {nbits n : Nat} (h : decodeTableWord nbits n = some i) :
    decode (tableWordISet (tableWord nbits n)) (tableWord nbits n) = .ok i := by
  unfold decodeTableWord at h
  split at h
  · split at h
    · rename_i hDecode
      rw [hDecode, Option.some.inj h]
    · cases h
  · cases h

/-- What a step leaves: the parameters and the store, the program counter 4 bytes on, x[15], and in every register what it
held or FPSID. -/
theorem step_next_frame (h : step s = .next t) : t.cfg = s.cfg ∧ t.mem = s.mem ∧ t.pc = s.pc + 4 ∧
    t.readX 15 = s.readX 15 ∧ ∀ j : Fin 16, t.readX j = s.readX j ∨ t.readX j = fpsidValue s.cfg := by
  obtain ⟨w, i, u, -, -, hExec, rfl⟩ := step_next h
  obtain ⟨⟨hi, -⟩, -⟩ := exec_next hExec
  obtain ⟨hPc, hMem, -⟩ := exec_next_frame hExec
  have hReadX (j : Fin 16) : u.advance.readX j = u.readX j := by rw [State.readX, State.readX, State.advance_x]
  refine ⟨(State.advance_cfg u).trans (exec_next_cfg hExec), (State.advance_mem u).trans hMem,
    congrArg (· + 4) hPc, ?x15, fun j => ?registers⟩
  case x15 =>
    rw [hReadX]
    exact (exec_next_readX hExec 15).resolve_right fun hOwn => Instr.rt_ne_of_wellFormed hi hOwn.1.symm
  case registers =>
    rw [hReadX]
    exact (exec_next_readX hExec j).imp_right And.right

end Step

/-- Settles O37: a step keeps the configuration and the store the invariant speaks of. -/
theorem stepKeepsTheInvariant : Obligations.StepKeepsTheInvariant := by
  rintro s t ⟨hCfg, hMem⟩ h
  obtain ⟨hCfgEq, hMemEq, -⟩ := step_next_frame h
  rw [← hCfgEq] at hCfg
  rw [← hMemEq] at hMem
  exact ⟨⟨hCfg, hMem⟩, hCfgEq, congrArg fpsidValue hCfgEq⟩

/-- Settles O39, by induction on the number of steps, the first step's FPSID being the rest of the run's. -/
theorem everyRunKeepsFpsidAndWritesOnlyFpsid : Obligations.EveryRunKeepsFpsidAndWritesOnlyFpsid := by
  intro k
  induction k with
  | zero =>
    intro s t h
    cases h
    exact ⟨rfl, rfl, (BitVec.add_zero s.pc).symm, rfl, fun _ => .inl rfl⟩
  | succ k ih =>
    intro s t h
    obtain ⟨u, hStep, hRun⟩ := run_succ_next h
    obtain ⟨hCfg, hMem, hPc, hX15, hRegs⟩ := step_next_frame hStep
    obtain ⟨hCfg', hMem', hPc', hX15', hRegs'⟩ := ih u t hRun
    refine ⟨hCfg'.trans hCfg, hMem'.trans hMem, ?pc, hX15'.trans hX15, fun j => ?registers⟩
    case pc =>
      rw [hPc', hPc, BitVec.add_assoc, Nat.mul_succ, Nat.add_comm, BitVec.ofNat_add]
      rfl
    case registers =>
      obtain hKept | hFpsid := hRegs' j
      · rw [hKept]
        exact hRegs j
      · exact .inr (hFpsid.trans (congrArg fpsidValue hCfg))

/-- Settles O36: the check faults at EL0, and with the condition passed the instruction, and so the step, does too. -/
theorem noStepCompletesAnAccessAtEl0 : Obligations.NoStepCompletesAnAccessAtEl0 := by
  intro s w i hCfg hEl hCond hw hDecode
  obtain ⟨hi, -⟩ := decodeWith_ok hDecode
  exact step_of_exec_fault hw hDecode (exec_fault hi hCfg hCond (accessCheck_el0 hEl))

/-- Settles O33: the step of a word that decodes, and the advance by what is pending. -/
theorem stepRunsThePresentedInstruction : Obligations.StepRunsThePresentedInstruction := fun _ _ _ hw hi =>
  ⟨fun _ h hPending => (step_of_exec_next hw hi h).trans (congrArg _ (advance_of_pending_nil hPending)),
    fun _ _ _ h hPending => (step_of_exec_next hw hi h).trans (congrArg _ (advance_of_pending_cons hPending)),
    fun _ => step_of_exec_fault hw hi, fun _ => step_of_exec_refused hw hi⟩

/-- Settles O34: the two steps that run no instruction. -/
theorem stepRefusesWhatIsNotAnInstruction : Obligations.StepRefusesWhatIsNotAnInstruction := fun _ =>
  ⟨step_noWord, fun _ _ => step_undecodable⟩

/-- Settles O35: the loaded word is the one presented, and is read with the table it was loaded for. -/
theorem loadedTableWordIsTheNextInstruction : Obligations.LoadedTableWordIsTheNextInstruction := by
  intro s nbits w i h
  have hWord : (s.withFetchWord nbits w).mem.lookup (s.withFetchWord nbits w).pc.toNat = some (tableWord nbits w) :=
    Memory.lookup_store_self s.mem s.pc.toNat (tableWord nbits w)
  have hDecode := decodeTableWord_some h
  exact ⟨fun _ => step_of_exec_next hWord hDecode, fun _ => step_of_exec_fault hWord hDecode,
    fun _ => step_of_exec_refused hWord hDecode⟩

/-- The configuration of the launch state is admitted, whatever the free fields of FPSID. -/
theorem configAdmitted_resetConfig : Safety.ConfigAdmitted resetConfig :=
  ⟨rfl, (fpsidWf_iff resetConfig).mpr ⟨fun _ => by decide, by decide, fun _ => rfl, fun _ => .inl rfl, fun _ => rfl,
    fun h => absurd h (by decide)⟩⟩

/-- Settles O38: the configuration of the launch state is admitted and its SW is 0. -/
theorem resetMeetsTheInvariant : Obligations.ResetMeetsTheInvariant :=
  ⟨⟨configAdmitted_resetConfig, State.reset_mem_wf⟩, rfl, fpsidSw_fpsidValue resetConfig, rfl, rfl⟩

end Sys2Proof.Machine
